-- ==== Sys2Proof/Word.lean ====
section
/-! DEFINITION. The word types of the block: a byte of a frame, a 16-bit register or buffer word, the 32-bit status
register and the 72-bit command word (spec/10_state.md R18, R19, R22; spec/20_memory.md R42; spec/30_encoding.md R54).
Every value of the block is unsigned (spec/00_scope.md R9). -/
namespace Sys2Proof

/-- A frame byte, or an 8-bit register. -/
abbrev Byte := BitVec 8

/-- A 16-bit register, frame field or word of `BUFMEM`. -/
abbrev Word := BitVec 16

/-- The 32-bit status register (R19). -/
abbrev StatusWord := BitVec 32

/-- A command word: opcode in bits 71..64, argument in bits 63..0 (R54). -/
abbrev CommandWord := BitVec 72

end Sys2Proof
end

