-- ==== Sys2Proof/Syntax.lean ====
section
/-! DEFINITION. The instructions: one constructor per row of spec/opcode_table.json, with the fields the row names. The
first eight are the commands of the command port (spec/30_encoding.md R55). The other eighteen are the Modbus RTU frame
forms (R60 to R66), the block's second encoding: a request form is what BUILD emits, a response form is what VALIDATE
judges. DESIGN CHOICE (log entry 1): a frame form is an instruction whose fields are the frame's fields. Safe: a step runs
a form only through BUILD or VALIDATE. -/
namespace Sys2Proof

/-- The instruction set. -/
inductive Instr where
  /-- `NOP` (R79). -/
  | nop
  /-- `CRC_INIT` (R95). -/
  | crcInit
  /-- `CRC_BYTE b` (R96). -/
  | crcByte (b : Byte)
  /-- `LOAD_DESC slave, func, addr, count, base` (R80). -/
  | loadDesc (slave func : Byte) (addr count base : Word)
  /-- `BUILD` (R105). -/
  | build
  /-- `RX_CLEAR` (R123). -/
  | rxClear
  /-- `RX_PUSH b` (R124). -/
  | rxPush (b : Byte)
  /-- `VALIDATE` (R125). -/
  | validate
  /-- Request, function 1 (R62, R106). -/
  | reqReadCoilStatus (slave : Byte) (addr count crc : Word)
  /-- Request, function 2 (R62, R107). -/
  | reqReadInputStatus (slave : Byte) (addr count crc : Word)
  /-- Request, function 3 (R62, R108). -/
  | reqReadHoldingRegisters (slave : Byte) (addr count crc : Word)
  /-- Request, function 4 (R62, R109). -/
  | reqReadInputRegisters (slave : Byte) (addr count crc : Word)
  /-- Request, function 15 (R63, R110). -/
  | reqForceMultipleCoils (slave : Byte) (addr count : Word) (byteCount : Byte) (data : List Byte) (crc : Word)
  /-- Request, function 16 (R63, R111). -/
  | reqPresetMultipleRegisters (slave : Byte) (addr count : Word) (byteCount : Byte) (data : List Byte) (crc : Word)
  /-- Read response, function 1 (R64, R134). -/
  | rspReadCoilStatus (slave byteCount : Byte) (data : List Byte) (crc : Word)
  /-- Read response, function 2 (R64, R135). -/
  | rspReadInputStatus (slave byteCount : Byte) (data : List Byte) (crc : Word)
  /-- Read response, function 3 (R64, R136). -/
  | rspReadHoldingRegisters (slave byteCount : Byte) (data : List Byte) (crc : Word)
  /-- Read response, function 4 (R64, R137). -/
  | rspReadInputRegisters (slave byteCount : Byte) (data : List Byte) (crc : Word)
  /-- Write confirmation, function 15 (R65, R140). -/
  | rspForceMultipleCoils (slave : Byte) (addr count crc : Word)
  /-- Write confirmation, function 16 (R65, R141). -/
  | rspPresetMultipleRegisters (slave : Byte) (addr count crc : Word)
  /-- Exception response to function 1 (R66, R131). -/
  | rspExcReadCoilStatus (slave code : Byte) (crc : Word)
  /-- Exception response to function 2 (R66, R131). -/
  | rspExcReadInputStatus (slave code : Byte) (crc : Word)
  /-- Exception response to function 3 (R66, R131). -/
  | rspExcReadHoldingRegisters (slave code : Byte) (crc : Word)
  /-- Exception response to function 4 (R66, R131). -/
  | rspExcReadInputRegisters (slave code : Byte) (crc : Word)
  /-- Exception response to function 15 (R66, R131). -/
  | rspExcForceMultipleCoils (slave code : Byte) (crc : Word)
  /-- Exception response to function 16 (R66, R131). -/
  | rspExcPresetMultipleRegisters (slave code : Byte) (crc : Word)
  deriving DecidableEq, Repr

end Sys2Proof
end

