-- ==== Sys2Proof/Config.lean ====
section
/-! DEFINITION. What one instance of the block fixes for its lifetime: the parameters `BUF_WORDS` and `COIL_LAYOUT`
(spec/00_scope.md R8; spec/10_state.md R38), and the values a host read returns that the spec leaves open
(spec/93_implementation_defined.md U6, U9). The spec's fixed constants (R6, R7) are in Machine/Constants.lean. -/
namespace Sys2Proof

/-- `COIL_LAYOUT` (R8, R46): how the points of functions 1, 2 and 15 lie in the word buffer. -/
inductive CoilLayout where
  /-- One point per buffer word (the spec's default). -/
  | onePerWord
  /-- Sixteen points per buffer word, point k at bit `k mod 16` of entry `k div 16`. -/
  | packed16
  deriving DecidableEq, Repr

/-- The parameters of an instance (R8). DESIGN CHOICE (log entry 3): `BUF_WORDS` is held as its last word address, so that
exactly the values 1 to 65536 can be written. Safe: every value the spec allows is covered and no other. -/
structure Config where
  /-- `BUF_WORDS` - 1, the highest word address of `BUFMEM`. -/
  lastWordAddr : Word
  /-- `COIL_LAYOUT`. -/
  coilLayout : CoilLayout
  deriving DecidableEq, Repr

/-- `BUF_WORDS`, 1 to 65536 (R8, R42). -/
def Config.bufWords (c : Config) : Nat := c.lastWordAddr.toNat + 1

/-! ## Free values

A free value has no body, so no proof can see what it is. Each is applied to the number of host actions left after the read,
which every action of a run makes smaller, so that no two reads of a run are made to agree (DESIGN CHOICE, log entry 17;
safe). -/

/-- What the host reads from `RXBUF[i]` with `i >= RXLEN`: `any value` (U9). -/
opaque Config.freeRxByte (actionsLeft i : Nat) : Byte

/-- What the host reads from the word of `BUFMEM` at address `a` while nothing has written it: real memory returns a value
nobody chose (R37, U6). -/
opaque Config.freeBufWord (actionsLeft a : Nat) : Word

end Sys2Proof
end

