-- ==== Sys2Proof/Machine/Constants.lean ====
section
/-! DEFINITION. The fixed constants of the block (spec/00_scope.md R6 and R7) and the function codes (R13). They stand
under Machine/ so that a later repair may mend a value: the requester calls the source's literals unaudited (R6). -/
namespace Sys2Proof

/-- `MAX_FRAME` (R6). -/
def maxFrame : Nat := 128
/-- `MAX_READ` (R6): the largest count of functions 1 to 4. -/
def maxRead : Nat := 61
/-- `MAX_WRITE15` (R7): the largest count of function 15. -/
def maxWrite15 : Nat := 952
/-- `MAX_WRITE16` (R6): the largest count of function 16. -/
def maxWrite16 : Nat := 59
/-- `MAX_SLAVE` (R6). -/
def maxSlave : Nat := 247
/-- `MIN_COUNT` (R7). -/
def minCount : Nat := 1
/-- `POLY` (R6). -/
def crcPoly : Word := 0xA001#16
/-- `CRC_INIT` (R7). DEDUCED (log entry 12): the spec itself takes this value from general knowledge, and the model follows
the spec. Unsafe if the real block starts elsewhere. -/
def crcStart : Word := 0xFFFF#16
/-- `EXC_FLAG` (R6). -/
def excFlag : Byte := 0x80#8

/-- `ReadCoilStatus` (R13). -/
def fcReadCoilStatus : Byte := 0x01#8
/-- `ReadInputStatus` (R13). -/
def fcReadInputStatus : Byte := 0x02#8
/-- `ReadHoldingRegisters` (R13). -/
def fcReadHoldingRegisters : Byte := 0x03#8
/-- `ReadInputRegisters` (R13). -/
def fcReadInputRegisters : Byte := 0x04#8
/-- `ForceMultipleCoils` (R13). -/
def fcForceMultipleCoils : Byte := 0x0F#8
/-- `PresetMultipleRegisters` (R13). -/
def fcPresetMultipleRegisters : Byte := 0x10#8

end Sys2Proof
end

