-- ==== Sys2Proof/Machine/Crc.lean ====
section
/-! DEFINITION. Byte order of 16-bit fields (spec/30_encoding.md R68) and the CRC-16 as a pure function
(spec/41_crc.md R93, R94, R98, R99). -/
namespace Sys2Proof

/-- `v[7:0]`. -/
def loByte (v : Word) : Byte := v.extractLsb' 0 8

/-- `v[15:8]`. -/
def hiByte (v : Word) : Byte := v.extractLsb' 8 8

/-- `{hi, lo}` = `hi * 256 + lo` (R9, R68). -/
def joinBytes (hi lo : Byte) : Word := hi ++ lo

/-- One of the eight shifts of `crc_update` (R94). -/
def crcShift (c : Word) : Word :=
  if c.getLsbD 0 then (c >>> 1) ^^^ crcPoly else c >>> 1

/-- `n` shifts. -/
def crcShifts : Nat → Word → Word
  | 0, c => c
  | n + 1, c => crcShifts n (crcShift c)

/-- `crc_update(c, b)` (R94). -/
def crcUpdate (c : Word) (b : Byte) : Word := crcShifts 8 (c ^^^ b.setWidth 16)

/-- `crc16(s)` (R93). -/
def crc16 (s : List Byte) : Word := s.foldl crcUpdate crcStart

/-- The two CRC bytes of a frame, low byte first (R41, R98). -/
def crcBytes (c : Word) : List Byte := [loByte c, hiByte c]

/-- `frame(s)` (R98). -/
def crcFrame (s : List Byte) : List Byte := s ++ crcBytes (crc16 s)

/-- The CRC field of a received frame, `{r[L-1], r[L-2]}` (R41). -/
def crcField (r : List Byte) : Word :=
  joinBytes (r.getD (r.length - 1) 0) (r.getD (r.length - 2) 0)

/-- `crc_ok(r)`, for `L >= 3` (R99). -/
def crcOk (r : List Byte) : Bool := crc16 (r.take (r.length - 2)) == crcField r

end Sys2Proof
end

