-- ==== Sys2Proof/Machine/Frame.lean ====
section
/-! DEFINITION. The shape of Modbus RTU frames: function classes, data lengths, frame lengths, descriptor legality and the
byte sequence of each frame format (spec/30_encoding.md R60 to R71; spec/40_descriptor.md R81 to R87). -/
namespace Sys2Proof

/-! ## Function classes (R13, R61) -/

/-- Functions 1 and 2: reads of points. -/
def isReadPoints (f : Byte) : Bool := f == fcReadCoilStatus || f == fcReadInputStatus

/-- Functions 3 and 4: reads of registers. -/
def isReadRegisters (f : Byte) : Bool := f == fcReadHoldingRegisters || f == fcReadInputRegisters

/-- Functions 1 to 4. -/
def isRead (f : Byte) : Bool := isReadPoints f || isReadRegisters f

/-- Functions 15 and 16. -/
def isWrite (f : Byte) : Bool := f == fcForceMultipleCoils || f == fcPresetMultipleRegisters

/-- Functions 1, 2 and 15, whose items are points. -/
def isPointFunction (f : Byte) : Bool := isReadPoints f || f == fcForceMultipleCoils

/-- The six supported functions (R83). -/
def isSupported (f : Byte) : Bool := isRead f || isWrite f

/-! ## Lengths -/

/-- `N(f, count)`, the byte count of the data (R69). -/
def dataBytes (f : Byte) (count : Nat) : Nat :=
  if isPointFunction f then (count + 7) / 8 else 2 * count

/-- `words(f, count)`, the buffer words a transaction uses (R87). -/
def bufferWords (layout : CoilLayout) (f : Byte) (count : Nat) : Nat :=
  if isPointFunction f then
    match layout with
    | .onePerWord => count
    | .packed16 => (count + 15) / 16
  else count

/-- `rsp_len(f, n)`, the length of a normal response (R128). -/
def rspLen (f : Byte) (count : Nat) : Nat :=
  if isRead f then 5 + dataBytes f count else 8

/-- The length of an exception response (R66, R71). -/
def excLen : Nat := 5

/-! ## Descriptor legality (R81 to R85) -/

/-- The largest legal count of a function; 0 for an unsupported one (R85). -/
def maxCount (f : Byte) : Nat :=
  if isRead f then maxRead
  else if f == fcForceMultipleCoils then maxWrite15
  else if f == fcPresetMultipleRegisters then maxWrite16
  else 0

/-- The slave check (R82). -/
def slaveLegal (slave : Byte) : Bool := decide (slave.toNat ≤ maxSlave)

/-- The broadcast check (R84). -/
def broadcastLegal (slave f : Byte) : Bool := slave != 0 || isWrite f

/-- The count check (R85). -/
def countLegal (f : Byte) (count : Word) : Bool :=
  decide (minCount ≤ count.toNat) && decide (count.toNat ≤ maxCount f)

/-- `valid_desc` (R81): the conjunction of R82, R83, R84 and R85. -/
def validDesc (slave f : Byte) (count : Word) : Bool :=
  slaveLegal slave && isSupported f && broadcastLegal slave f && countLegal f count

/-! ## Frame bytes -/

/-- Bytes 0 to 5 of a request: slave, function, address and count, each high byte first (R62, R63). -/
def requestHead (slave f : Byte) (addr count : Word) : List Byte :=
  [slave, f, hiByte addr, loByte addr, hiByte count, loByte count]

/-- Format `REQ_READ` (R62). -/
def readRequestBytes (slave f : Byte) (addr count crc : Word) : List Byte :=
  requestHead slave f addr count ++ crcBytes crc

/-- Format `REQ_WRITE` (R63). -/
def writeRequestBytes (slave f : Byte) (addr count : Word) (byteCount : Byte) (data : List Byte) (crc : Word) : List Byte :=
  requestHead slave f addr count ++ (byteCount :: data) ++ crcBytes crc

/-- Format `RSP_READ` (R64). -/
def readResponseBytes (slave f byteCount : Byte) (data : List Byte) (crc : Word) : List Byte :=
  slave :: f :: byteCount :: data ++ crcBytes crc

/-- Format `RSP_WRITE` (R65). -/
def writeResponseBytes (slave f : Byte) (addr count crc : Word) : List Byte :=
  requestHead slave f addr count ++ crcBytes crc

/-- Format `RSP_EXC` to function `f` (R66). -/
def excResponseBytes (slave f code : Byte) (crc : Word) : List Byte :=
  [slave, f ||| excFlag, code] ++ crcBytes crc

/-! ## Fields a request form derives -/

/-- The last data byte of function 15 holds 0 in every bit past `count` (R112). -/
def coilPaddingClear (count : Nat) (data : List Byte) : Bool :=
  (data.getD (dataBytes fcForceMultipleCoils count - 1) 0) >>> (count - 8 * (dataBytes fcForceMultipleCoils count - 1)) == 0#8

/-- The CRC field of a read request is the CRC of the six bytes before it (R60, R62). -/
def readRequestOk (slave f : Byte) (addr count crc : Word) : Bool :=
  crc == crc16 (requestHead slave f addr count)

/-- The byte count, data length, padding and CRC of a write request are those the form derives (R63, R69, R112). -/
def writeRequestOk (slave f : Byte) (addr count : Word) (byteCount : Byte) (data : List Byte) (crc : Word) : Bool :=
  byteCount.toNat == dataBytes f count.toNat && data.length == dataBytes f count.toNat
    && (f != fcForceMultipleCoils || coilPaddingClear count.toNat data)
    && crc == crc16 (requestHead slave f addr count ++ (byteCount :: data))

end Sys2Proof
end

