-- ==== Sys2Proof/WellFormed.lean ====
section
/-! DEFINITION. Which instructions the encodings can spell. A command takes every operand value (spec/30_encoding.md R56;
spec/40_descriptor.md R80 checks nothing). A request form is a frame BUILD can emit: a legal descriptor (R81) and the
derived fields right (R62, R63, R69, R112). A response form is a received frame that fits `RXBUF` (spec/10_state.md R29):
its fields may be wrong, since judging them is VALIDATE's work (spec/43_deserializer.md R129 to R133, R140). -/
namespace Sys2Proof

/-- A read request BUILD can emit (R62, R106 to R109). -/
def readRequestWf (slave f : Byte) (addr count crc : Word) : Bool :=
  validDesc slave f count && readRequestOk slave f addr count crc

/-- A write request BUILD can emit (R63, R110, R111). -/
def writeRequestWf (slave f : Byte) (addr count : Word) (byteCount : Byte) (data : List Byte) (crc : Word) : Bool :=
  validDesc slave f count && writeRequestOk slave f addr count byteCount data crc

/-- A read response that fits `RXBUF`: 5 bytes beside the data, 128 in all (R29, R64). -/
def readResponseWf (data : List Byte) : Bool := decide (data.length + 5 ≤ maxFrame)

/-- Well-formed instructions. -/
def Instr.wellFormed : Instr → Bool
  | .nop => true
  | .crcInit => true
  | .crcByte _ => true
  | .loadDesc _ _ _ _ _ => true
  | .build => true
  | .rxClear => true
  | .rxPush _ => true
  | .validate => true
  | .reqReadCoilStatus slave addr count crc => readRequestWf slave fcReadCoilStatus addr count crc
  | .reqReadInputStatus slave addr count crc => readRequestWf slave fcReadInputStatus addr count crc
  | .reqReadHoldingRegisters slave addr count crc => readRequestWf slave fcReadHoldingRegisters addr count crc
  | .reqReadInputRegisters slave addr count crc => readRequestWf slave fcReadInputRegisters addr count crc
  | .reqForceMultipleCoils slave addr count n data crc => writeRequestWf slave fcForceMultipleCoils addr count n data crc
  | .reqPresetMultipleRegisters slave addr count n data crc =>
    writeRequestWf slave fcPresetMultipleRegisters addr count n data crc
  | .rspReadCoilStatus _ _ data _ => readResponseWf data
  | .rspReadInputStatus _ _ data _ => readResponseWf data
  | .rspReadHoldingRegisters _ _ data _ => readResponseWf data
  | .rspReadInputRegisters _ _ data _ => readResponseWf data
  | .rspForceMultipleCoils _ _ _ _ => true
  | .rspPresetMultipleRegisters _ _ _ _ => true
  | .rspExcReadCoilStatus _ _ _ => true
  | .rspExcReadInputStatus _ _ _ => true
  | .rspExcReadHoldingRegisters _ _ _ => true
  | .rspExcReadInputRegisters _ _ _ => true
  | .rspExcForceMultipleCoils _ _ _ => true
  | .rspExcPresetMultipleRegisters _ _ _ => true

end Sys2Proof
end

