-- ==== Sys2Proof/Decode.lean ====
section
/-! DEFINITION. The decoder and the encoder of the block's two encodings: the 72-bit command word (spec/30_encoding.md R54
to R57) and the Modbus RTU frames of either direction (R60 to R68). The decoder is total and rejects by name. -/
namespace Sys2Proof

/-- What is decoded: a word of the command port, the bytes of a request on the wire, or the bytes of a response. The three
are apart because a function byte means a different frame in each direction (R61). -/
inductive Code where
  | command (w : CommandWord)
  | request (bytes : List Byte)
  | response (bytes : List Byte)
  deriving DecidableEq, Repr

/-- Why a code decodes to no instruction. -/
inductive DecodeError where
  /-- A command opcode 0x08 to 0xFF (R57). -/
  | reservedCommand (opcode : Byte)
  /-- A function byte that is no function of a request, or of a response (R61). -/
  | unknownFunction (f : Byte)
  /-- Bytes too few or too many for the form the function byte selects (R62 to R66). -/
  | wrongLength
  deriving DecidableEq, Repr

/-! ## Command words -/

/-- A command word from its opcode and argument (R54). -/
def commandWord (opcode : Byte) (arg : BitVec 64) : CommandWord := opcode ++ arg

/-- `cmd[7:0]`, word bits 71 to 64 (R54). -/
def opcodeField (w : CommandWord) : Byte := w.extractLsb' 64 8

/-- `arg[63:0]` (R54). -/
def argField (w : CommandWord) : BitVec 64 := w.extractLsb' 0 64

/-- The operand `b` of CRC_BYTE and RX_PUSH, and `slave` of LOAD_DESC: `arg[7:0]` (R55). -/
def argByte0 (a : BitVec 64) : Byte := a.extractLsb' 0 8

/-- `func` = `arg[15:8]` (R55). -/
def argFunc (a : BitVec 64) : Byte := a.extractLsb' 8 8

/-- `addr` = `arg[31:16]` (R55). -/
def argAddr (a : BitVec 64) : Word := a.extractLsb' 16 16

/-- `count` = `arg[47:32]` (R55). -/
def argCount (a : BitVec 64) : Word := a.extractLsb' 32 16

/-- `base` = `arg[63:48]` (R55). -/
def argBase (a : BitVec 64) : Word := a.extractLsb' 48 16

/-- The argument of LOAD_DESC (R55, R80). -/
def descArg (slave func : Byte) (addr count base : Word) : BitVec 64 :=
  base ++ count ++ addr ++ func ++ slave

/-- The argument of CRC_BYTE and RX_PUSH, with the ignored bits 0 (R55, R56). -/
def byteArg (b : Byte) : BitVec 64 := b.setWidth 64

/-- The command decoder (R55, R56, R57). -/
def decodeCommand (w : CommandWord) : Except DecodeError Instr :=
  let a := argField w
  match (opcodeField w).toNat with
  | 0x00 => .ok .nop
  | 0x01 => .ok .crcInit
  | 0x02 => .ok (.crcByte (argByte0 a))
  | 0x03 => .ok (.loadDesc (argByte0 a) (argFunc a) (argAddr a) (argCount a) (argBase a))
  | 0x04 => .ok .build
  | 0x05 => .ok .rxClear
  | 0x06 => .ok (.rxPush (argByte0 a))
  | 0x07 => .ok .validate
  | _ => .error (.reservedCommand (opcodeField w))

/-! ## Frames -/

/-- The bytes before a frame's trailing CRC, and the CRC, low byte first (R41, R60); none for fewer than two bytes. -/
def splitCrc : List Byte → Option (List Byte × Word)
  | [] => none
  | [_] => none
  | [lo, hi] => some ([], joinBytes hi lo)
  | b :: rest => (splitCrc rest).map fun p => (b :: p.1, p.2)

/-- A read request's fields after the function byte (R62). -/
def decodeReadRequest (make : Word → Word → Word → Instr) : List Byte → Except DecodeError Instr
  | [aHi, aLo, cHi, cLo, crcLo, crcHi] => .ok (make (joinBytes aHi aLo) (joinBytes cHi cLo) (joinBytes crcHi crcLo))
  | _ => .error .wrongLength

/-- A write request's fields after the function byte (R63). -/
def decodeWriteRequest (make : Word → Word → Byte → List Byte → Word → Instr) : List Byte → Except DecodeError Instr
  | aHi :: aLo :: cHi :: cLo :: n :: rest =>
    match splitCrc rest with
    | some (data, crc) => .ok (make (joinBytes aHi aLo) (joinBytes cHi cLo) n data crc)
    | none => .error .wrongLength
  | _ => .error .wrongLength

/-- A read response's fields after the function byte (R64). The end is the end of the bytes, not the byte count's (R71). -/
def decodeReadResponse (make : Byte → List Byte → Word → Instr) : List Byte → Except DecodeError Instr
  | n :: rest =>
    match splitCrc rest with
    | some (data, crc) => .ok (make n data crc)
    | none => .error .wrongLength
  | _ => .error .wrongLength

/-- A write confirmation's fields after the function byte (R65). -/
def decodeWriteResponse (make : Word → Word → Word → Instr) : List Byte → Except DecodeError Instr
  | [aHi, aLo, cHi, cLo, crcLo, crcHi] => .ok (make (joinBytes aHi aLo) (joinBytes cHi cLo) (joinBytes crcHi crcLo))
  | _ => .error .wrongLength

/-- An exception response's fields after the function byte (R66). -/
def decodeExcResponse (make : Byte → Word → Instr) : List Byte → Except DecodeError Instr
  | [code, crcLo, crcHi] => .ok (make code (joinBytes crcHi crcLo))
  | _ => .error .wrongLength

/-- The request decoder: the function byte selects the form (R61 to R63). -/
def decodeRequest : List Byte → Except DecodeError Instr
  | slave :: f :: rest =>
    match f.toNat with
    | 0x01 => decodeReadRequest (.reqReadCoilStatus slave) rest
    | 0x02 => decodeReadRequest (.reqReadInputStatus slave) rest
    | 0x03 => decodeReadRequest (.reqReadHoldingRegisters slave) rest
    | 0x04 => decodeReadRequest (.reqReadInputRegisters slave) rest
    | 0x0F => decodeWriteRequest (.reqForceMultipleCoils slave) rest
    | 0x10 => decodeWriteRequest (.reqPresetMultipleRegisters slave) rest
    | _ => .error (.unknownFunction f)
  | _ => .error .wrongLength

/-- The response decoder: the function byte selects the form (R61, R64 to R66). -/
def decodeResponse : List Byte → Except DecodeError Instr
  | slave :: f :: rest =>
    match f.toNat with
    | 0x01 => decodeReadResponse (.rspReadCoilStatus slave) rest
    | 0x02 => decodeReadResponse (.rspReadInputStatus slave) rest
    | 0x03 => decodeReadResponse (.rspReadHoldingRegisters slave) rest
    | 0x04 => decodeReadResponse (.rspReadInputRegisters slave) rest
    | 0x0F => decodeWriteResponse (.rspForceMultipleCoils slave) rest
    | 0x10 => decodeWriteResponse (.rspPresetMultipleRegisters slave) rest
    | 0x81 => decodeExcResponse (.rspExcReadCoilStatus slave) rest
    | 0x82 => decodeExcResponse (.rspExcReadInputStatus slave) rest
    | 0x83 => decodeExcResponse (.rspExcReadHoldingRegisters slave) rest
    | 0x84 => decodeExcResponse (.rspExcReadInputRegisters slave) rest
    | 0x8F => decodeExcResponse (.rspExcForceMultipleCoils slave) rest
    | 0x90 => decodeExcResponse (.rspExcPresetMultipleRegisters slave) rest
    | _ => .error (.unknownFunction f)
  | _ => .error .wrongLength

/-- The decoder. -/
def decode : Code → Except DecodeError Instr
  | .command w => decodeCommand w
  | .request bytes => decodeRequest bytes
  | .response bytes => decodeResponse bytes

/-! ## The encoder -/

/-- The encoder, from the tables of R55 and R62 to R66. -/
def encode : Instr → Code
  | .nop => .command (commandWord 0x00 0)
  | .crcInit => .command (commandWord 0x01 0)
  | .crcByte b => .command (commandWord 0x02 (byteArg b))
  | .loadDesc slave func addr count base => .command (commandWord 0x03 (descArg slave func addr count base))
  | .build => .command (commandWord 0x04 0)
  | .rxClear => .command (commandWord 0x05 0)
  | .rxPush b => .command (commandWord 0x06 (byteArg b))
  | .validate => .command (commandWord 0x07 0)
  | .reqReadCoilStatus slave addr count crc => .request (readRequestBytes slave 0x01 addr count crc)
  | .reqReadInputStatus slave addr count crc => .request (readRequestBytes slave 0x02 addr count crc)
  | .reqReadHoldingRegisters slave addr count crc => .request (readRequestBytes slave 0x03 addr count crc)
  | .reqReadInputRegisters slave addr count crc => .request (readRequestBytes slave 0x04 addr count crc)
  | .reqForceMultipleCoils slave addr count n data crc => .request (writeRequestBytes slave 0x0F addr count n data crc)
  | .reqPresetMultipleRegisters slave addr count n data crc => .request (writeRequestBytes slave 0x10 addr count n data crc)
  | .rspReadCoilStatus slave n data crc => .response (readResponseBytes slave 0x01 n data crc)
  | .rspReadInputStatus slave n data crc => .response (readResponseBytes slave 0x02 n data crc)
  | .rspReadHoldingRegisters slave n data crc => .response (readResponseBytes slave 0x03 n data crc)
  | .rspReadInputRegisters slave n data crc => .response (readResponseBytes slave 0x04 n data crc)
  | .rspForceMultipleCoils slave addr count crc => .response (writeResponseBytes slave 0x0F addr count crc)
  | .rspPresetMultipleRegisters slave addr count crc => .response (writeResponseBytes slave 0x10 addr count crc)
  | .rspExcReadCoilStatus slave code crc => .response (excResponseBytes slave 0x01 code crc)
  | .rspExcReadInputStatus slave code crc => .response (excResponseBytes slave 0x02 code crc)
  | .rspExcReadHoldingRegisters slave code crc => .response (excResponseBytes slave 0x03 code crc)
  | .rspExcReadInputRegisters slave code crc => .response (excResponseBytes slave 0x04 code crc)
  | .rspExcForceMultipleCoils slave code crc => .response (excResponseBytes slave 0x0F code crc)
  | .rspExcPresetMultipleRegisters slave code crc => .response (excResponseBytes slave 0x10 code crc)

/-- The bytes of a code as the opcode table lays them out: a command's opcode first and then its argument from the least
significant byte up (the table numbers the opcode as bits 7 to 0 of its row), a frame in transmission order. -/
def codeBytes : Code → List Byte
  | .command w => opcodeField w :: (List.range 8).map fun k => (argField w).extractLsb' (8 * k) 8
  | .request bytes => bytes
  | .response bytes => bytes

/-! ## The opcode table's numbering -/

/-- Byte `k` of a table word: bits `8k + 7` to `8k`. -/
def tableByte (w k : Nat) : Byte := BitVec.ofNat 8 (w / 256 ^ k)

/-- A frame of `len` bytes as the table numbers it: the row matches the function byte, frame byte 1, as bits 7 to 0, and
the bytes after it follow. Byte 0, the slave id, has no bits in the row and is 0. -/
def tableFrame (w len : Nat) : List Byte :=
  0#8 :: (List.range (len - 1)).map (tableByte w)

/-- The code a table word stands for. The table gives its command rows and its frame rows in one numbering (bits 7 to 0 are
the opcode in the first, the frame's function byte in the others), so the row's width and the byte tell them apart: a
one-byte row below 0x08 is a command; another one-byte row is the shortest frame its function byte allows (`REQ_WRITE` 9
bytes, `RSP_EXC` 5 bytes); a wider row is one of the two 8-byte formats (`REQ_READ` for 0x01 to 0x04, `RSP_WRITE` for 0x0F
and 0x10), or a whole command word of 72 bits. The one-byte rows `RSP_READ` share their word with the commands 0x01 to 0x04 and cannot be told apart from them.
DESIGN CHOICE (log entry 14). Safe: no step reads this definition. -/
def tableCode (nbits w : Nat) : Code :=
  let b := w % 256
  if nbits ≤ 8 then
    if b < 0x08 then .command (commandWord (tableByte w 0) 0)
    else if b == 0x0F || b == 0x10 then .request (tableFrame w 9)
    else if 0x81 ≤ b && b ≤ 0x90 then .response (tableFrame w 5)
    else .command (commandWord (tableByte w 0) 0)
  else if nbits ≤ 64 && 0x01 ≤ b && b ≤ 0x04 then .request (tableFrame w 8)
  else if nbits ≤ 64 && (b == 0x0F || b == 0x10) then .response (tableFrame w 8)
  else .command (commandWord (tableByte w 0) (BitVec.ofNat 64 (w / 256)))

/-- The instruction the decoder reads from a word of the opcode table. -/
def decodeTableWord (nbits w : Nat) : Option Instr :=
  match decode (tableCode nbits w) with
  | .ok i => some i
  | .error _ => none

end Sys2Proof
end

