-- ==== Sys2Proof/Machine/State.lean ====
section
/-! DEFINITION. The state of the block (spec/10_state.md R15, R36; spec/20_memory.md R42), the outcomes' reasons, and the
state right after reset. -/
namespace Sys2Proof.Machine

/-- A register the host reads between commands (R32). `DESC_LOADED` is not readable (R23). -/
inductive HostRegister where
  | crc
  | status
  | txLen
  /-- `TXBUF[i]`. -/
  | txBuf (i : Fin 128)
  | rxLen
  /-- `RXBUF[i]`. -/
  | rxBuf (i : Fin 128)
  | dSlave
  | dFunc
  | dAddr
  | dCount
  | dBase
  deriving DecidableEq, Repr

/-- One move of the host (R58, R185). -/
inductive HostAction where
  /-- Present a command word at the command port (R54). -/
  | command (w : CommandWord)
  /-- `HOST_WR a, v`: write word `v` at `BUFMEM[a]`. -/
  | hostWr (a v : Word)
  /-- `HOST_RD a`: read the word at `BUFMEM[a]`. -/
  | hostRd (a : Word)
  /-- Read a register. -/
  | readRegister (r : HostRegister)
  /-- `RESET`: assert reset (R171). -/
  | reset
  deriving DecidableEq, Repr

/-- `BUFMEM`'s written words: word address and value, addresses strictly rising. An address not listed is an unwritten
word, which holds no value (R37, R172). -/
abbrev Memory := List (Nat × Word)

/-- The state. `cfg` and `hostActions` are the model's own fields (log entries 3 and 2); every other field is the spec's. -/
structure State where
  /-- `CRC` (R18). -/
  crc : Word
  /-- `STATUS` (R19); its fields are read and written through Machine/Flags.lean. -/
  status : StatusWord
  /-- `D_SLAVE` (R22). -/
  dSlave : Byte
  /-- `D_FUNC` (R22). -/
  dFunc : Byte
  /-- `D_ADDR` (R22). -/
  dAddr : Word
  /-- `D_COUNT` (R22). -/
  dCount : Word
  /-- `D_BASE` (R22). -/
  dBase : Word
  /-- `DESC_LOADED` (R23). -/
  descLoaded : Bool
  /-- `TXBUF` (R27). -/
  txBuf : Vector Byte 128
  /-- `TXLEN` (R27). -/
  txLen : Byte
  /-- `RXBUF` (R29). -/
  rxBuf : Vector Byte 128
  /-- `RXLEN` (R29). -/
  rxLen : Byte
  /-- `BUFMEM` (R42). -/
  bufMem : Memory
  /-- The instance's parameters (R8, R38). DESIGN CHOICE (log entry 3): held in the state, never written by a step, so that
  a statement about every state holds for every value of them. Safe. -/
  cfg : Config
  /-- The host's remaining actions, oldest first (R17, R54, R185). DESIGN CHOICE (log entry 2). Safe: every sequence of
  host actions is a value of this field. How many are left numbers the free values of Config (log entry 17). -/
  hostActions : List HostAction
  deriving DecidableEq, Repr

/-- Why the machine stops with a fault. The spec's own faults `NO_DESC`, `BAD_DESC` and `BUF_RANGE` are not here: they are
next states with `STATUS.FAULT` set (R152). -/
inductive Fault where
  /-- `UNINIT_BUF` (R37, R43, R153): BUILD of function 15 or 16 packs a buffer word never written (log entry 18).
  Safe: the hardware goes on with some value, the model stops. -/
  | uninitBuf
  /-- A host read of `TXBUF[i]` with `i >= TXLEN` (R28, U8) or of a descriptor register with no LOAD_DESC since reset (R32,
  U5): the spec has a model treat it as a fault of the host's program. Raised by a host action and by no command. Safe:
  the hardware returns some value. -/
  | hostReadUndefined
  /-- `HOST_WR` or `HOST_RD` at a word address that is not in `BUFMEM` (R42). Raised by a host action and by no command.
  Safe: the address does not exist. -/
  | hostAddress
  deriving DecidableEq, Repr

/-- Why an instruction has no meaning. -/
inductive Refusal where
  /-- The instruction's meaning is not written yet; raised by an arm of exec only. Safe. -/
  | notModelled (mnemonic : String)
  /-- `RESERVED_CMD` (R57, R157): a command word whose opcode is 0x08 to 0xFF, raised by the command port. Safe: the run
  proves nothing more. -/
  | reservedCommand (opcode : Byte)
  /-- A request form whose byte count, data, padding or CRC is not what its fields derive: no frame of that form
  (R62, R63, R69, R112), so BUILD never emits it; raised by the six request forms on such terms only, and by no step. Safe. -/
  | illFormedRequest
  deriving DecidableEq, Repr

/-- The parameters at power-up: 64 words, the size the spec's vectors use (spec/95_test_vectors.md), and the default layout
of R8. DESIGN CHOICE (log entry 3): the spec gives no default for `BUF_WORDS`. Unsafe for a claim about reset alone;
every other statement holds for all parameters. -/
def resetConfig : Config := { lastWordAddr := 63, coilLayout := .onePerWord }

/-- The state after power-up and reset (R36, R171, R172, R173). DESIGN CHOICE (log entries 4 and 5): the descriptor
registers and the bytes of `TXBUF` and `RXBUF`, which the spec leaves unwritten, are 0. Unsafe if a proof leans on those
zeros; no command reads them, and a host read of them is a fault (R28, R32) or returns a free value (log entry 17). -/
def State.reset : State :=
  { crc := 0xFFFF#16
    status := 0#32
    dSlave := 0#8
    dFunc := 0#8
    dAddr := 0#16
    dCount := 0#16
    dBase := 0#16
    descLoaded := false
    txBuf := Vector.replicate 128 0#8
    txLen := 0#8
    rxBuf := Vector.replicate 128 0#8
    rxLen := 0#8
    bufMem := []
    cfg := resetConfig
    hostActions := [] }

end Sys2Proof.Machine
end

