-- ==== Sys2Proof/Machine/Flags.lean ====
section
/-! DEFINITION. The fields of `STATUS` (spec/10_state.md R19 to R26, R30) and the codes they hold. The block has no
arithmetic flags; these status fields are all it has. -/
namespace Sys2Proof.Machine

/-- The field of `n` bits from bit `lo`. -/
def field (w : StatusWord) (lo n : Nat) : BitVec n := w.extractLsb' lo n

/-- `w` with `v` in the field from bit `lo`. -/
def withField {n : Nat} (w : StatusWord) (lo : Nat) (v : BitVec n) : StatusWord :=
  (w &&& ~~~((BitVec.allOnes n).setWidth 32 <<< lo)) ||| (v.setWidth 32 <<< lo)

/-! ## Codes -/

/-- The values `STATUS.RESULT` takes (R20). -/
inductive Verdict where
  | none
  | success
  | exception
  | frameError
  | incomplete
  deriving DecidableEq, Repr

/-- The code of a verdict (R20). -/
def verdictCode : Verdict → BitVec 3
  | .none => 0
  | .success => 1
  | .exception => 2
  | .frameError => 3
  | .incomplete => 4

/-- The fault causes (R153); `UNINIT_BUF` is the model's only. -/
inductive FaultCause where
  | noDesc
  | badDesc
  | bufRange
  | uninitBuf
  deriving DecidableEq, Repr

/-- The code of a cause in `STATUS.FAULT_CAUSE` (R30, R153). `UNINIT_BUF` has none: it stops the machine and this value is
never stored. -/
def causeCode : FaultCause → BitVec 2
  | .noDesc => 1
  | .badDesc => 2
  | .bufRange => 3
  | .uninitBuf => 0

/-- `exc_class` (R24): codes 1, 2, 3 are classes 0, 1, 2 and every other code is class 3. -/
def excClass (code : Byte) : BitVec 2 :=
  match code.toNat with
  | 0x01 => 0
  | 0x02 => 1
  | 0x03 => 2
  | _ => 3

/-! ## Reading the fields -/

/-- `STATUS.RESULT`. -/
def State.result (s : State) : BitVec 3 := field s.status 0 3
/-- `STATUS.EXPECT_RSP`. -/
def State.expectRsp (s : State) : BitVec 1 := field s.status 3 1
/-- `STATUS.EXC_CLASS`. -/
def State.excClassField (s : State) : BitVec 2 := field s.status 4 2
/-- `STATUS.RX_OVF`. -/
def State.rxOvf (s : State) : BitVec 1 := field s.status 6 1
/-- `STATUS.FAULT`. -/
def State.faultFlag (s : State) : BitVec 1 := field s.status 7 1
/-- `STATUS.FAULT_CAUSE`. -/
def State.faultCause (s : State) : BitVec 2 := field s.status 8 2
/-- `STATUS.EXC_CODE`. -/
def State.excCode (s : State) : Byte := field s.status 16 8
/-- Whether the block is in the fault state (R30, R154). -/
def State.faulted (s : State) : Bool := s.faultFlag == 1#1

/-! ## Writing the fields -/

/-- `STATUS.RESULT <- v`. -/
def State.setResult (v : Verdict) (s : State) : State := { s with status := withField s.status 0 (verdictCode v) }
/-- `STATUS.EXPECT_RSP <- b`. -/
def State.setExpectRsp (b : BitVec 1) (s : State) : State := { s with status := withField s.status 3 b }
/-- `STATUS.EXC_CLASS <- c`. -/
def State.setExcClass (c : BitVec 2) (s : State) : State := { s with status := withField s.status 4 c }
/-- `STATUS.RX_OVF <- b`. -/
def State.setRxOvf (b : BitVec 1) (s : State) : State := { s with status := withField s.status 6 b }
/-- `STATUS.FAULT <- b`. -/
def State.setFaultFlag (b : BitVec 1) (s : State) : State := { s with status := withField s.status 7 b }
/-- `STATUS.FAULT_CAUSE <- c`. -/
def State.setFaultCause (c : BitVec 2) (s : State) : State := { s with status := withField s.status 8 c }
/-- `STATUS.EXC_CODE <- b`. -/
def State.setExcCode (b : Byte) (s : State) : State := { s with status := withField s.status 16 b }

end Sys2Proof.Machine
end

