-- ==== Sys2Proof/Machine/Ops.lean ====
section
/-! DEFINITION. The shared operations: the fault gate, fault entry, the word-buffer memory and the frame buffers
(spec/60_exceptions.md R152 to R155; spec/20_memory.md R43; spec/10_state.md R27, R29). -/
namespace Sys2Proof.Machine

/-! ## Faults -/

/-- Fault entry (R152): `FAULT` and `FAULT_CAUSE` are written and nothing else. There is no return from it but reset
(R154, R171). -/
def enterFault (c : FaultCause) (s : State) : State :=
  (s.setFaultFlag 1).setFaultCause (causeCode c)

/-- `raise Fault(cause)` (R10): the sticky fault state, or for `UNINIT_BUF`, which the hardware cannot detect, a stop of the
model (R153). -/
def raiseFault (c : FaultCause) (s : State) : Host.Outcome State Fault Refusal :=
  match c with
  | .uninitBuf => .fault .uninitBuf
  | .noDesc => .next (enterFault .noDesc s)
  | .badDesc => .next (enterFault .badDesc s)
  | .bufRange => .next (enterFault .bufRange s)

/-- One command (R154, R152): while the block is faulted it writes nothing; otherwise it takes its effect, or raises the
fault its body found on the state as it was, so that a faulting command has no partial effect. -/
def runCommand (s : State) (body : Except FaultCause State) : Host.Outcome State Fault Refusal :=
  if s.faulted then .next s
  else
    match body with
    | .ok s' => .next s'
    | .error c => raiseFault c s

/-! ## The word-buffer memory -/

/-- The value of a written word; none for an unwritten one (R37). -/
def memGet : Memory → Nat → Option Word
  | [], _ => none
  | (b, w) :: rest, a => if a = b then some w else memGet rest a

/-- Write a word, keeping the addresses strictly rising. -/
def memSet : Memory → Nat → Word → Memory
  | [], a, v => [(a, v)]
  | (b, w) :: rest, a, v =>
    if a < b then (a, v) :: (b, w) :: rest
    else if a = b then (a, v) :: rest
    else (b, w) :: memSet rest a v

/-- The canonical form: addresses strictly rising, each below `bound`. An unlisted word has no value, so no entry repeats
what an unlisted word reads as. -/
def Memory.wf (bound : Nat) : Memory → Bool
  | [] => true
  | [(a, _)] => decide (a < bound)
  | (a, _) :: (b, w) :: rest => decide (a < b) && Memory.wf bound ((b, w) :: rest)

/-- `MemRead(a)` (R43). A word only VALIDATE's unpack has written counts as written: R43 and D29 say "never written", where
R37, R153 and U6 say the host never wrote it (DEDUCED, log entry 18; unsafe under that narrower reading). -/
def memRead (s : State) (a : Nat) : Except FaultCause Word :=
  if s.cfg.bufWords ≤ a then .error .bufRange
  else
    match memGet s.bufMem a with
    | none => .error .uninitBuf
    | some w => .ok w

/-- `MemWrite(a, v)` (R43). -/
def memWrite (s : State) (a : Nat) (v : Word) : Except FaultCause State :=
  if s.cfg.bufWords ≤ a then .error .bufRange
  else .ok { s with bufMem := memSet s.bufMem a v }

/-- `n` words from address `a` up, without wrap-around (R44). -/
def readWords (s : State) (a : Nat) : Nat → Except FaultCause (List Word)
  | 0 => .ok []
  | n + 1 =>
    match memRead s a with
    | .error c => .error c
    | .ok w =>
      match readWords s (a + 1) n with
      | .error c => .error c
      | .ok ws => .ok (w :: ws)

/-- Write words from address `a` up, without wrap-around (R44). -/
def writeWords (s : State) (a : Nat) : List Word → Except FaultCause State
  | [] => .ok s
  | v :: vs =>
    match memWrite s a v with
    | .error c => .error c
    | .ok s' => writeWords s' (a + 1) vs

/-! ## The frame buffers -/

/-- `TXBUF[i] <- fr[i]` for `i` in `0 .. len(fr)-1` (R105): bytes past the frame keep their values (R28). -/
def overlay (fr : List Byte) (buf : Vector Byte 128) : Vector Byte 128 :=
  Vector.ofFn fun i : Fin 128 => fr.getD i.val buf[i]

/-- `TXBUF[0..TXLEN-1]` (R27). -/
def State.txBytes (s : State) : List Byte := s.txBuf.toList.take s.txLen.toNat

/-- `RXBUF[0..RXLEN-1]` (R29). -/
def State.rxBytes (s : State) : List Byte := s.rxBuf.toList.take s.rxLen.toNat

end Sys2Proof.Machine
end

