-- ==== Sys2Proof/Machine/Control.lean ====
section
/-! DEFINITION. The meanings of NOP and LOAD_DESC (spec/40_descriptor.md R79, R80). -/
namespace Sys2Proof.Machine

/-- `NOP` (R79): nothing is written, faulted or not. -/
def execNop (s : State) : Host.Outcome State Fault Refusal := runCommand s (.ok s)

/-- `LOAD_DESC` (R80): the five descriptor registers and `DESC_LOADED`, unchecked. -/
def execLoadDesc (slave func : Byte) (addr count base : Word) (s : State) : Host.Outcome State Fault Refusal :=
  runCommand s (.ok
    { s with
      dSlave := slave
      dFunc := func
      dAddr := addr
      dCount := count
      dBase := base
      descLoaded := true })

end Sys2Proof.Machine
end

