-- ==== Sys2Proof/Machine/CrcCommands.lean ====
section
/-! DEFINITION. The meanings of CRC_INIT and CRC_BYTE (spec/41_crc.md R95, R96). -/
namespace Sys2Proof.Machine

/-- `CRC_INIT` (R95). -/
def execCrcInit (s : State) : Host.Outcome State Fault Refusal := runCommand s (.ok { s with crc := crcStart })

/-- `CRC_BYTE b` (R96). -/
def execCrcByte (b : Byte) (s : State) : Host.Outcome State Fault Refusal :=
  runCommand s (.ok { s with crc := crcUpdate s.crc b })

end Sys2Proof.Machine
end

