-- ==== Sys2Proof/Machine/Operands.lean ====
section
/-! DEFINITION. The operands of BUILD and VALIDATE: the descriptor checks and the data a frame carries, packed from buffer
words or unpacked into them (spec/40_descriptor.md R81 to R87; spec/42_serializer.md R112, R113;
spec/43_deserializer.md R126, R138, R139; spec/20_memory.md R45, R46). -/
namespace Sys2Proof.Machine

/-! ## Descriptor checks -/

/-- The range check of a transaction's buffer words, without wrap-around (R86). -/
def bufferInRange (s : State) (f : Byte) (count : Word) : Bool :=
  decide (s.dBase.toNat + bufferWords s.cfg.coilLayout f count.toNat ≤ s.cfg.bufWords)

/-- The checks of BUILD, in order (R105, R155): `NO_DESC`, `BAD_DESC`, and for functions 15 and 16 `BUF_RANGE`. -/
def buildCheck (s : State) (slave f : Byte) (count : Word) : Except FaultCause Unit :=
  if !s.descLoaded then .error .noDesc
  else if !validDesc slave f count then .error .badDesc
  else if isWrite f && !bufferInRange s f count then .error .bufRange
  else .ok ()

/-- `check_desc()` of VALIDATE, in order (R126): `NO_DESC`, `BAD_DESC` (a broadcast among them), and for functions 1 to 4
`BUF_RANGE`. -/
def validateCheck (s : State) : Except FaultCause Unit :=
  if !s.descLoaded then .error .noDesc
  else if !validDesc s.dSlave s.dFunc s.dCount then .error .badDesc
  else if s.dSlave == 0 then .error .badDesc
  else if isRead s.dFunc && !bufferInRange s s.dFunc s.dCount then .error .bufRange
  else .ok ()

/-! ## Packing (BUILD) -/

/-- Point `k` as the buffer's words hold it (R46, R112). -/
def wordsPoint (layout : CoilLayout) (ws : List Word) (k : Nat) : Bool :=
  match layout with
  | .onePerWord => ws.getD k 0 != 0
  | .packed16 => (ws.getD (k / 16) 0).getLsbD (k % 16)

/-- Data byte `j` of `n` points: bit `i` is point `8j + i`, 0 past the last point (R112). -/
def coilByte (point : Nat → Bool) (n j : Nat) : Byte :=
  (List.range 8).foldl (fun acc i => if 8 * j + i < n && point (8 * j + i) then acc ||| (1#8 <<< i) else acc) 0#8

/-- `pack_coils(n)` over the buffer words read (R112). -/
def packCoils (layout : CoilLayout) (ws : List Word) (n : Nat) : List Byte :=
  (List.range ((n + 7) / 8)).map (coilByte (wordsPoint layout ws) n)

/-- `pack_words(n)` over the buffer words read, high byte first (R113). -/
def packWords (ws : List Word) : List Byte := ws.flatMap fun w => [hiByte w, loByte w]

/-- The data of a write request (R110, R111). -/
def requestData (layout : CoilLayout) (f : Byte) (n : Nat) (ws : List Word) : List Byte :=
  if f == fcForceMultipleCoils then packCoils layout ws n else packWords ws

/-- What follows the six head bytes of the request BUILD makes of the descriptor: nothing for functions 1 to 4, the byte
count and the data, packed from the buffer, for functions 15 and 16 (R105). -/
def requestPayload (s : State) : Except FaultCause (List Byte) :=
  if isWrite s.dFunc then
    match readWords s s.dBase.toNat (bufferWords s.cfg.coilLayout s.dFunc s.dCount.toNat) with
    | .error c => .error c
    | .ok ws =>
      .ok (BitVec.ofNat 8 (dataBytes s.dFunc s.dCount.toNat) :: requestData s.cfg.coilLayout s.dFunc s.dCount.toNat ws)
  else .ok []

/-! ## Unpacking (VALIDATE) -/

/-- Point `k` of a received read response, `r[3 + (k div 8)][k mod 8]` (R138). -/
def responsePoint (r : List Byte) (k : Nat) : Bool := (r.getD (3 + k / 8) 0).getLsbD (k % 8)

/-- Word `w` of a `PACKED16` unpack: bit `i` is point `16w + i`, 0 past the last point (R138). -/
def packedWord (point : Nat → Bool) (n w : Nat) : Word :=
  (List.range 16).foldl (fun acc i => if 16 * w + i < n && point (16 * w + i) then acc ||| (1#16 <<< i) else acc) 0#16

/-- The words `unpack_coils(r, n)` writes, entry 0 first (R138). -/
def unpackCoils (layout : CoilLayout) (r : List Byte) (n : Nat) : List Word :=
  match layout with
  | .onePerWord => (List.range n).map fun k => if responsePoint r k then 1#16 else 0#16
  | .packed16 => (List.range ((n + 15) / 16)).map (packedWord (responsePoint r) n)

/-- The words `unpack_words(r, n)` writes, entry 0 first (R139). -/
def unpackWords (r : List Byte) (n : Nat) : List Word :=
  (List.range n).map fun k => joinBytes (r.getD (3 + 2 * k) 0) (r.getD (4 + 2 * k) 0)

/-- The words a successful read writes (R125). -/
def responseWords (layout : CoilLayout) (f : Byte) (r : List Byte) (n : Nat) : List Word :=
  if isReadPoints f then unpackCoils layout r n else unpackWords r n

end Sys2Proof.Machine
end

