-- ==== Sys2Proof/Machine/Deserializer.lean ====
section
/-! DEFINITION. The meanings of RX_CLEAR, RX_PUSH, VALIDATE and the twelve response forms (spec/43_deserializer.md R123 to
R144). VALIDATE judges the bytes of `RXBUF`; a response form is VALIDATE of that received frame (log entry 1), so that
VALIDATE equals the form its bytes spell. -/
namespace Sys2Proof.Machine

/-- `RX_CLEAR` (R123). -/
def execRxClear (s : State) : Host.Outcome State Fault Refusal :=
  runCommand s (.ok ((({ s with rxLen := 0 }).setRxOvf 0).setResult .none))

/-- `RX_PUSH b` (R124). -/
def execRxPush (b : Byte) (s : State) : Host.Outcome State Fault Refusal :=
  runCommand s (.ok
    (if s.rxLen.toNat < maxFrame then
      { s with
        rxBuf := s.rxBuf.setIfInBounds s.rxLen.toNat b
        rxLen := s.rxLen + 1 }
    else s.setRxOvf 1))

/-! ## The verdict -/

/-- What shape selection answers (R127, R128): a final verdict, or a frame of the expected length still to be checked. -/
inductive Shape where
  | verdict (v : Verdict)
  | pending (exc : Bool)
  deriving DecidableEq, Repr

/-- Length against the expected one (R128). -/
def lengthShape (len expected : Nat) (exc : Bool) : Shape :=
  if len < expected then .verdict .incomplete
  else if expected < len then .verdict .frameError
  else .pending exc

/-- Shape selection (R127, R128). -/
def shape (r : List Byte) (f : Byte) (n : Nat) : Shape :=
  if r.length < 2 then .verdict .incomplete
  else if r.getD 1 0 == f ||| excFlag then lengthShape r.length excLen true
  else if r.getD 1 0 == f then lengthShape r.length (rspLen f n) false
  else .verdict .frameError

/-- `check_read(r, f, n)` (R133). -/
def checkRead (r : List Byte) (f : Byte) (n : Nat) : Verdict :=
  if (r.getD 2 0).toNat == dataBytes f n then .success else .frameError

/-- `check_echo(r, n)` (R140, R141). -/
def checkEcho (r : List Byte) (addr count : Word) : Verdict :=
  if joinBytes (r.getD 2 0) (r.getD 3 0) == addr && joinBytes (r.getD 4 0) (r.getD 5 0) == count then .success
  else .frameError

/-- The verdict on received bytes `r` (R125, R156). -/
def verdict (r : List Byte) (s : State) : Verdict :=
  if s.rxOvf == 1#1 then .frameError
  else
    match shape r s.dFunc s.dCount.toNat with
    | .verdict v => v
    | .pending exc =>
      if !crcOk r then .frameError
      else if r.getD 0 0 != s.dSlave then .frameError
      else if exc then .exception
      else if isRead s.dFunc then checkRead r s.dFunc s.dCount.toNat
      else checkEcho r s.dAddr s.dCount

/-- The status fields a verdict writes (R125, R24, R25). -/
def recordVerdict (v : Verdict) (r : List Byte) (s : State) : State :=
  if v = .exception then ((s.setResult v).setExcCode (r.getD 2 0)).setExcClass (excClass (r.getD 2 0))
  else ((s.setResult v).setExcCode 0).setExcClass 0

/-- The body of VALIDATE on received bytes `r` (R125). -/
def validateBody (r : List Byte) (s : State) : Except FaultCause State :=
  match validateCheck s with
  | .error c => .error c
  | .ok () =>
    if verdict r s = .success ∧ isRead s.dFunc = true then
      writeWords (recordVerdict (verdict r s) r s) s.dBase.toNat
        (responseWords s.cfg.coilLayout s.dFunc r s.dCount.toNat)
    else .ok (recordVerdict (verdict r s) r s)

/-- VALIDATE of received bytes `r` (R125). -/
def judgeFrame (r : List Byte) (s : State) : Host.Outcome State Fault Refusal := runCommand s (validateBody r s)

/-- `VALIDATE` (R125). -/
def execValidate (s : State) : Host.Outcome State Fault Refusal := judgeFrame s.rxBytes s

/-! ## The response forms -/

/-- VALIDATE of a function-1 response (R134). -/
def execRspReadCoilStatus (slave byteCount : Byte) (data : List Byte) (crc : Word) (s : State) :
    Host.Outcome State Fault Refusal :=
  judgeFrame (readResponseBytes slave fcReadCoilStatus byteCount data crc) s

/-- VALIDATE of a function-2 response (R135). -/
def execRspReadInputStatus (slave byteCount : Byte) (data : List Byte) (crc : Word) (s : State) :
    Host.Outcome State Fault Refusal :=
  judgeFrame (readResponseBytes slave fcReadInputStatus byteCount data crc) s

/-- VALIDATE of a function-3 response (R136). -/
def execRspReadHoldingRegisters (slave byteCount : Byte) (data : List Byte) (crc : Word) (s : State) :
    Host.Outcome State Fault Refusal :=
  judgeFrame (readResponseBytes slave fcReadHoldingRegisters byteCount data crc) s

/-- VALIDATE of a function-4 response (R137). -/
def execRspReadInputRegisters (slave byteCount : Byte) (data : List Byte) (crc : Word) (s : State) :
    Host.Outcome State Fault Refusal :=
  judgeFrame (readResponseBytes slave fcReadInputRegisters byteCount data crc) s

/-- VALIDATE of a function-15 confirmation (R140). -/
def execRspForceMultipleCoils (slave : Byte) (addr count crc : Word) (s : State) : Host.Outcome State Fault Refusal :=
  judgeFrame (writeResponseBytes slave fcForceMultipleCoils addr count crc) s

/-- VALIDATE of a function-16 confirmation (R141). -/
def execRspPresetMultipleRegisters (slave : Byte) (addr count crc : Word) (s : State) : Host.Outcome State Fault Refusal :=
  judgeFrame (writeResponseBytes slave fcPresetMultipleRegisters addr count crc) s

/-- VALIDATE of an exception response to function 1 (R131). -/
def execRspExcReadCoilStatus (slave code : Byte) (crc : Word) (s : State) : Host.Outcome State Fault Refusal :=
  judgeFrame (excResponseBytes slave fcReadCoilStatus code crc) s

/-- VALIDATE of an exception response to function 2 (R131). -/
def execRspExcReadInputStatus (slave code : Byte) (crc : Word) (s : State) : Host.Outcome State Fault Refusal :=
  judgeFrame (excResponseBytes slave fcReadInputStatus code crc) s

/-- VALIDATE of an exception response to function 3 (R131). -/
def execRspExcReadHoldingRegisters (slave code : Byte) (crc : Word) (s : State) : Host.Outcome State Fault Refusal :=
  judgeFrame (excResponseBytes slave fcReadHoldingRegisters code crc) s

/-- VALIDATE of an exception response to function 4 (R131). -/
def execRspExcReadInputRegisters (slave code : Byte) (crc : Word) (s : State) : Host.Outcome State Fault Refusal :=
  judgeFrame (excResponseBytes slave fcReadInputRegisters code crc) s

/-- VALIDATE of an exception response to function 15 (R131). -/
def execRspExcForceMultipleCoils (slave code : Byte) (crc : Word) (s : State) : Host.Outcome State Fault Refusal :=
  judgeFrame (excResponseBytes slave fcForceMultipleCoils code crc) s

/-- VALIDATE of an exception response to function 16 (R131). -/
def execRspExcPresetMultipleRegisters (slave code : Byte) (crc : Word) (s : State) : Host.Outcome State Fault Refusal :=
  judgeFrame (excResponseBytes slave fcPresetMultipleRegisters code crc) s

end Sys2Proof.Machine
end

