-- ==== Sys2Proof/Machine/Serializer.lean ====
section
/-! DEFINITION. The meanings of BUILD and of the six request forms (spec/42_serializer.md R105 to R118). BUILD takes its
operands from the descriptor registers and `BUFMEM`; a request form is BUILD of that form with its operands as the frame's
fields (log entry 1), so that BUILD equals the form its descriptor selects. -/
namespace Sys2Proof.Machine

/-- What a BUILD that does not fault writes (R105): the frame, its length, and the status fields of a new transaction
(R21, R114). -/
def emitRequest (fr : List Byte) (slave : Byte) (s : State) : State :=
  (((({ s with
        txBuf := overlay fr s.txBuf
        txLen := BitVec.ofNat 8 fr.length }).setResult .none).setExpectRsp (if slave == 0 then 0 else 1)).setExcClass 0).setExcCode 0

/-- The body of BUILD (R105). -/
def buildBody (s : State) : Except FaultCause State :=
  match buildCheck s s.dSlave s.dFunc s.dCount with
  | .error c => .error c
  | .ok () =>
    match requestPayload s with
    | .error c => .error c
    | .ok payload =>
      .ok (emitRequest (crcFrame (requestHead s.dSlave s.dFunc s.dAddr s.dCount ++ payload)) s.dSlave s)

/-- `BUILD` (R105). -/
def execBuild (s : State) : Host.Outcome State Fault Refusal := runCommand s (buildBody s)

/-- BUILD of a request form: the gate and the checks of R105 on the form's fields, then the frame. `ok` says that the
derived fields (byte count, data length, padding, CRC) are those of the form. -/
def buildForm (slave f : Byte) (count : Word) (ok : Bool) (fr : List Byte) (s : State) : Host.Outcome State Fault Refusal :=
  if s.faulted then .next s
  else
    match buildCheck s slave f count with
    | .error c => raiseFault c s
    | .ok () => if ok then .next (emitRequest fr slave s) else .refused .illFormedRequest

/-- BUILD of a read request. -/
def buildReadForm (f slave : Byte) (addr count crc : Word) (s : State) : Host.Outcome State Fault Refusal :=
  buildForm slave f count (readRequestOk slave f addr count crc) (readRequestBytes slave f addr count crc) s

/-- BUILD of a write request. -/
def buildWriteForm (f slave : Byte) (addr count : Word) (byteCount : Byte) (data : List Byte) (crc : Word) (s : State) :
    Host.Outcome State Fault Refusal :=
  buildForm slave f count (writeRequestOk slave f addr count byteCount data crc)
    (writeRequestBytes slave f addr count byteCount data crc) s

/-- BUILD for function 1 (R106). -/
def execReqReadCoilStatus (slave : Byte) (addr count crc : Word) (s : State) : Host.Outcome State Fault Refusal :=
  buildReadForm fcReadCoilStatus slave addr count crc s

/-- BUILD for function 2 (R107). -/
def execReqReadInputStatus (slave : Byte) (addr count crc : Word) (s : State) : Host.Outcome State Fault Refusal :=
  buildReadForm fcReadInputStatus slave addr count crc s

/-- BUILD for function 3 (R108). -/
def execReqReadHoldingRegisters (slave : Byte) (addr count crc : Word) (s : State) : Host.Outcome State Fault Refusal :=
  buildReadForm fcReadHoldingRegisters slave addr count crc s

/-- BUILD for function 4 (R109). -/
def execReqReadInputRegisters (slave : Byte) (addr count crc : Word) (s : State) : Host.Outcome State Fault Refusal :=
  buildReadForm fcReadInputRegisters slave addr count crc s

/-- BUILD for function 15 (R110). -/
def execReqForceMultipleCoils (slave : Byte) (addr count : Word) (byteCount : Byte) (data : List Byte) (crc : Word)
    (s : State) : Host.Outcome State Fault Refusal :=
  buildWriteForm fcForceMultipleCoils slave addr count byteCount data crc s

/-- BUILD for function 16 (R111). -/
def execReqPresetMultipleRegisters (slave : Byte) (addr count : Word) (byteCount : Byte) (data : List Byte) (crc : Word)
    (s : State) : Host.Outcome State Fault Refusal :=
  buildWriteForm fcPresetMultipleRegisters slave addr count byteCount data crc s

end Sys2Proof.Machine
end

