-- ==== Sys2Proof/Machine/Dispatch.lean ====
section
/-! DEFINITION. The meaning of every instruction: one arm per constructor, each a direct call. -/
namespace Sys2Proof.Machine

def exec (i : Instr) (s : State) : Host.Outcome State Fault Refusal :=
  match i with
  | .nop => Sys2Proof.Machine.execNop s
  | .crcInit => Sys2Proof.Machine.execCrcInit s
  | .crcByte b => Sys2Proof.Machine.execCrcByte b s
  | .loadDesc slave func addr count base => Sys2Proof.Machine.execLoadDesc slave func addr count base s
  | .build => Sys2Proof.Machine.execBuild s
  | .rxClear => Sys2Proof.Machine.execRxClear s
  | .rxPush b => Sys2Proof.Machine.execRxPush b s
  | .validate => Sys2Proof.Machine.execValidate s
  | .reqReadCoilStatus slave addr count crc => Sys2Proof.Machine.execReqReadCoilStatus slave addr count crc s
  | .reqReadInputStatus slave addr count crc => Sys2Proof.Machine.execReqReadInputStatus slave addr count crc s
  | .reqReadHoldingRegisters slave addr count crc => Sys2Proof.Machine.execReqReadHoldingRegisters slave addr count crc s
  | .reqReadInputRegisters slave addr count crc => Sys2Proof.Machine.execReqReadInputRegisters slave addr count crc s
  | .reqForceMultipleCoils slave addr count byteCount data crc => Sys2Proof.Machine.execReqForceMultipleCoils slave addr count byteCount data crc s
  | .reqPresetMultipleRegisters slave addr count byteCount data crc => Sys2Proof.Machine.execReqPresetMultipleRegisters slave addr count byteCount data crc s
  | .rspReadCoilStatus slave byteCount data crc => Sys2Proof.Machine.execRspReadCoilStatus slave byteCount data crc s
  | .rspReadInputStatus slave byteCount data crc => Sys2Proof.Machine.execRspReadInputStatus slave byteCount data crc s
  | .rspReadHoldingRegisters slave byteCount data crc => Sys2Proof.Machine.execRspReadHoldingRegisters slave byteCount data crc s
  | .rspReadInputRegisters slave byteCount data crc => Sys2Proof.Machine.execRspReadInputRegisters slave byteCount data crc s
  | .rspForceMultipleCoils slave addr count crc => Sys2Proof.Machine.execRspForceMultipleCoils slave addr count crc s
  | .rspPresetMultipleRegisters slave addr count crc => Sys2Proof.Machine.execRspPresetMultipleRegisters slave addr count crc s
  | .rspExcReadCoilStatus slave code crc => Sys2Proof.Machine.execRspExcReadCoilStatus slave code crc s
  | .rspExcReadInputStatus slave code crc => Sys2Proof.Machine.execRspExcReadInputStatus slave code crc s
  | .rspExcReadHoldingRegisters slave code crc => Sys2Proof.Machine.execRspExcReadHoldingRegisters slave code crc s
  | .rspExcReadInputRegisters slave code crc => Sys2Proof.Machine.execRspExcReadInputRegisters slave code crc s
  | .rspExcForceMultipleCoils slave code crc => Sys2Proof.Machine.execRspExcForceMultipleCoils slave code crc s
  | .rspExcPresetMultipleRegisters slave code crc => Sys2Proof.Machine.execRspExcPresetMultipleRegisters slave code crc s

end Sys2Proof.Machine
end

