-- ==== Sys2Proof/Machine/HostPort.lean ====
section
/-! DEFINITION. The host's moves between which the block is still: presenting a command word, reading and writing `BUFMEM`,
reading registers, and reset (spec/30_encoding.md R54, R58; spec/10_state.md R32, R33; spec/20_memory.md R51;
spec/70_reset_and_hazards.md R171). -/
namespace Sys2Proof.Machine

/-- A command word at the command port (R54): the instruction it spells is executed; a reserved opcode is refused (R57,
R157), faulted or not, since it spells no command (DEDUCED, log entry 8; safe). -/
def presentCommand (w : CommandWord) (s : State) : Host.Outcome State Fault Refusal :=
  match decode (.command w) with
  | .ok i => exec i s
  | .error _ => .refused (.reservedCommand (opcodeField w))

/-- `HOST_WR a, v` (R58). The memory is the host's, so the fault gate does not apply. An address outside `BUFMEM` does not
exist (R42). Only the address is checked: a write that breaks the in-flight buffer contract is a move with the effect R51 and
R179 describe, although R168 and U16 say a model has none (DEDUCED, log entry 19; safe). -/
def hostWrite (a v : Word) (s : State) : Host.Outcome State Fault Refusal :=
  if a.toNat < s.cfg.bufWords then .next { s with bufMem := memSet s.bufMem a.toNat v }
  else .fault .hostAddress

/-- The word `HOST_RD a` returns (R58). An unwritten word holds no value (R37), so its read returns a free one: the spec
stops BUILD there (R43) and no read of the host's (log entry 17). Only the address is checked: a read that breaks the
in-flight buffer contract is a move and sees the old words (R51, R179; DEDUCED, log entry 19; safe). -/
def hostReadWord (a : Word) (s : State) : Except Fault Word :=
  if a.toNat < s.cfg.bufWords then
    .ok ((memGet s.bufMem a.toNat).getD (Config.freeBufWord s.hostActions.length a.toNat))
  else .error .hostAddress

/-- A descriptor register's value, defined after a LOAD_DESC only: before it "a model treats it as a fault of the host's
program" (R32, U5). Power-up is a reset and RESET leaves the same state (R36, R171), so after it a LOAD_DESC is needed again
(DEDUCED, log entry 9; safe). -/
def descValue (s : State) (v : BitVec 32) : Except Fault (BitVec 32) :=
  if s.descLoaded then .ok v else .error .hostReadUndefined

/-- The value a register read returns, zero-extended to 32 bits (R32). Of `TXBUF[i]` past `TXLEN` the spec says "a model
faults a host read of it" (U8, R28, D34); of `RXBUF[i]` past `RXLEN` it says `any value` and no fault (U9), so that read runs. -/
def hostReadRegister (r : HostRegister) (s : State) : Except Fault (BitVec 32) :=
  match r with
  | .crc => .ok (s.crc.setWidth 32)
  | .status => .ok s.status
  | .txLen => .ok (s.txLen.setWidth 32)
  | .txBuf i => if i.val < s.txLen.toNat then .ok (s.txBuf[i].setWidth 32) else .error .hostReadUndefined
  | .rxLen => .ok (s.rxLen.setWidth 32)
  | .rxBuf i =>
    .ok ((if i.val < s.rxLen.toNat then s.rxBuf[i] else Config.freeRxByte s.hostActions.length i.val).setWidth 32)
  | .dSlave => descValue s (s.dSlave.setWidth 32)
  | .dFunc => descValue s (s.dFunc.setWidth 32)
  | .dAddr => descValue s (s.dAddr.setWidth 32)
  | .dCount => descValue s (s.dCount.setWidth 32)
  | .dBase => descValue s (s.dBase.setWidth 32)

/-- A read as a move: it has no side effect (R32, R49), or it is a fault of the host's program. -/
def afterRead {α : Type} (value : Except Fault α) (s : State) : Host.Outcome State Fault Refusal :=
  match value with
  | .ok _ => .next s
  | .error e => .fault e

/-- `RESET` (R171): the registers with a reset value take it; the descriptor registers and the buffer bytes become
unwritten, which `DESC_LOADED` = 0 and the lengths 0 say, and their bits stay ("reset does not clear any", R28; DEDUCED,
log entry 6; unsafe only for a claim about those bits); `BUFMEM` is untouched (R172). -/
def hostReset (s : State) : State :=
  { s with
    crc := State.reset.crc
    status := State.reset.status
    descLoaded := false
    txLen := 0
    rxLen := 0 }

/-- One host action. -/
def performAction (a : HostAction) (s : State) : Host.Outcome State Fault Refusal :=
  match a with
  | .command w => presentCommand w s
  | .hostWr a v => hostWrite a v s
  | .hostRd a => afterRead (hostReadWord a s) s
  | .readRegister r => afterRead (hostReadRegister r s) s
  | .reset => .next (hostReset s)

/-- Take the host's next action; with none left the block holds its state (R165, R185). -/
def hostStep (s : State) : Host.Outcome State Fault Refusal :=
  match s.hostActions with
  | [] => .next s
  | a :: rest => performAction a { s with hostActions := rest }

/-! ## Pseudo-commands (R59) -/

/-- `CRC_BYTES b0, ..., bn-1`: CRC_INIT, then one CRC_BYTE a byte. -/
def crcBytesActions (bs : List Byte) : List HostAction :=
  .command (commandWord 0x01 0) :: bs.map fun b => .command (commandWord 0x02 (byteArg b))

/-- `RX_FRAME b0, ..., bn-1`: RX_CLEAR, then one RX_PUSH a byte. -/
def rxFrameActions (bs : List Byte) : List HostAction :=
  .command (commandWord 0x05 0) :: bs.map fun b => .command (commandWord 0x06 (byteArg b))

/-! ## Placing an instruction for the next step -/

/-- The bytes `fr` in `RXBUF`, as RX_CLEAR and one RX_PUSH a byte leave them. -/
def withReceived (fr : List Byte) (s : State) : State :=
  { s with
    rxBuf := overlay fr s.rxBuf
    rxLen := BitVec.ofNat 8 fr.length }

/-- The descriptor a request frame carries, as LOAD_DESC leaves it; the buffer location stays. -/
def withRequest (fr : List Byte) (s : State) : State :=
  { s with
    dSlave := fr.getD 0 0
    dFunc := fr.getD 1 0
    dAddr := joinBytes (fr.getD 2 0) (fr.getD 3 0)
    dCount := joinBytes (fr.getD 4 0) (fr.getD 5 0)
    descLoaded := true }

/-- The state in which the next step runs what a code spells: a command word stands at the command port; a request form is
run by BUILD on its descriptor, a response form by VALIDATE on its bytes (log entries 1, 2 and 14). -/
def withCode (c : Code) (s : State) : State :=
  match c with
  | .command w => { s with hostActions := .command w :: s.hostActions }
  | .request fr => { withRequest fr s with hostActions := .command (commandWord 0x04 0) :: s.hostActions }
  | .response fr => { withReceived fr s with hostActions := .command (commandWord 0x07 0) :: s.hostActions }

end Sys2Proof.Machine
end

