-- ==== Sys2Proof/Machine/Step.lean ====
section
/-! DEFINITION. One step (spec/00_scope.md R14; spec/30_encoding.md R54): one host action, which for a command is its whole
atomic effect. -/
namespace Sys2Proof.Machine

/-- One step of the machine. -/
def step (s : State) : Host.Outcome State Fault Refusal := hostStep s

/-- `s` with the instruction of a word of the opcode table placed where the next step takes it. -/
def State.withFetchWord (s : State) (nbits w : Nat) : State := withCode (tableCode nbits w) s

end Sys2Proof.Machine
end

