-- ==== Sys2Proof/Safety.lean ====
section
/-! DEFINITION. What counts as a safe run, and the conditions claims are stated under: a good end (spec/70_reset_and_hazards.md
R185), the host's duties before BUILD and VALIDATE (R174; spec/60_exceptions.md R168), fault entry as the spec describes it
(R152), and the invariant of the block's state. Every predicate is decidable. -/
namespace Sys2Proof.Machine

/-! ## Ends of a run -/

/-- A good end (R185): the last action answered a state, and the block is not faulted. -/
def goodEnd : Host.Outcome State Fault Refusal → Bool
  | .next s => !s.faulted
  | .fault _ => false
  | .refused _ => false

/-! ## The host's duties -/

/-- Every buffer word a write request packs has been written (R168, R174), by the host or by VALIDATE (log entry 18). -/
abbrev BufferWritten (s : State) : Prop :=
  ∀ k, k < bufferWords s.cfg.coilLayout s.dFunc s.dCount.toNat → (memGet s.bufMem (s.dBase.toNat + k)).isSome = true

/-- The transaction's buffer words lie in `BUFMEM` (R86). -/
abbrev BufferFits (s : State) : Prop :=
  s.dBase.toNat + bufferWords s.cfg.coilLayout s.dFunc s.dCount.toNat ≤ s.cfg.bufWords

/-- The conditions under which BUILD takes its effect (R105): no fault, a loaded and valid descriptor, and for functions 15
and 16 buffer words in range and written. -/
abbrev BuildReady (s : State) : Prop :=
  s.faulted = false ∧ s.descLoaded = true ∧ validDesc s.dSlave s.dFunc s.dCount = true ∧
    (isWrite s.dFunc = true → BufferFits s ∧ BufferWritten s)

/-- The conditions under which VALIDATE gives a verdict (R126): no fault, a loaded and valid descriptor that is no
broadcast, and for functions 1 to 4 buffer words in range. -/
abbrev ValidateReady (s : State) : Prop :=
  s.faulted = false ∧ s.descLoaded = true ∧ validDesc s.dSlave s.dFunc s.dCount = true ∧ s.dSlave ≠ 0#8 ∧
    (isRead s.dFunc = true → BufferFits s)

/-! ## Status fields from one state to the next -/

/-- The reserved bits `STATUS[15:10]` and `STATUS[31:24]` are the same (R31). -/
abbrev ReservedKept (s t : State) : Prop :=
  field t.status 10 6 = field s.status 10 6 ∧ field t.status 24 8 = field s.status 24 8

/-- `FAULT` and `FAULT_CAUSE` are the same. -/
abbrev FaultFieldsKept (s t : State) : Prop := t.faultFlag = s.faultFlag ∧ t.faultCause = s.faultCause

/-- `RESULT`, `EXPECT_RSP`, `RX_OVF` and the exception fields are the same. -/
abbrev ProtocolFieldsKept (s t : State) : Prop :=
  t.result = s.result ∧ t.expectRsp = s.expectRsp ∧ t.rxOvf = s.rxOvf ∧ t.excClassField = s.excClassField ∧
    t.excCode = s.excCode

/-- Fault entry (R152): `FAULT` = 1, `FAULT_CAUSE` = `cause`, and nothing else changes. -/
abbrev FaultEntered (s t : State) (cause : BitVec 2) : Prop :=
  t = { s with status := t.status } ∧ t.faultFlag = 1#1 ∧ t.faultCause = cause ∧ ProtocolFieldsKept s t ∧ ReservedKept s t

/-! ## The invariant -/

/-- `STATUS` has the form R19, R20, R24, R30 and R31 give it: the reserved bits read 0, `RESULT` is one of its five values,
a cause is recorded exactly while the block is faulted, and an exception's class is that of its code. -/
abbrev StatusWf (s : State) : Prop :=
  field s.status 10 6 = 0#6 ∧ field s.status 24 8 = 0#8 ∧ s.result.toNat ≤ 4 ∧ (s.faultFlag = 1#1 ↔ s.faultCause ≠ 0#2) ∧
    (s.result = verdictCode .exception → s.excClassField = excClass s.excCode)

/-- The lengths are in range (R27, R29), `RX_OVF` is set only on a full buffer (R26), and a response is expected only of a
frame that was built (R19, R21). -/
abbrev LengthsWf (s : State) : Prop :=
  s.txLen.toNat ≤ maxFrame ∧ s.rxLen.toNat ≤ maxFrame ∧ (s.rxOvf = 1#1 → s.rxLen.toNat = maxFrame) ∧
    (s.expectRsp = 1#1 → s.txLen ≠ 0#8)

/-- `TXBUF` holds nothing yet, or a frame of at least eight bytes whose CRC is right (R98, R105, R117). -/
abbrev TxFrameGood (s : State) : Prop := s.txLen = 0#8 ∨ (8 ≤ s.txLen.toNat ∧ crcOk s.txBytes = true)

/-- The invariant of the block. -/
abbrev Inv (s : State) : Prop :=
  Memory.wf s.cfg.bufWords s.bufMem = true ∧ StatusWf s ∧ LengthsWf s ∧ TxFrameGood s

end Sys2Proof.Machine
end

