-- ==== Sys2Proof/Certificates/Slice0/Obligations.lean ====
section
/-! DEFINITION. The statements for the provers. Each docstring names the rules of spec/ the statement formalises, in
whole or in part; OBLIGATIONS.json says which a statement states whole. A statement
over every state holds for every value of the parameters, since they are fields of the state (log entry 3). -/
open Sys2Proof Sys2Proof.Machine

/-! ## Encoding -/

/-- R55, R56, R57: the opcode map. Each opcode spells its command whatever the ignored argument bits are, each operand is
its field of the argument, and an opcode 0x08 to 0xFF spells no command. -/
def Obligations.CommandWordsFollowTheOpcodeMap : Prop :=
  ∀ arg : BitVec 64,
    decode (.command (0x00#8 ++ arg)) = .ok .nop ∧
    decode (.command (0x01#8 ++ arg)) = .ok .crcInit ∧
    decode (.command (0x02#8 ++ arg)) = .ok (.crcByte (arg.extractLsb' 0 8)) ∧
    decode (.command (0x03#8 ++ arg)) =
      .ok (.loadDesc (arg.extractLsb' 0 8) (arg.extractLsb' 8 8) (arg.extractLsb' 16 16) (arg.extractLsb' 32 16)
        (arg.extractLsb' 48 16)) ∧
    decode (.command (0x04#8 ++ arg)) = .ok .build ∧
    decode (.command (0x05#8 ++ arg)) = .ok .rxClear ∧
    decode (.command (0x06#8 ++ arg)) = .ok (.rxPush (arg.extractLsb' 0 8)) ∧
    decode (.command (0x07#8 ++ arg)) = .ok .validate ∧
    ∀ opcode : Byte, 0x08 ≤ opcode.toNat → decode (.command (opcode ++ arg)) = .error (.reservedCommand opcode)

/-- R54 to R56, R60 to R66: for every well-formed instruction, command or frame form, decoding its encoding gives it back with
every operand. -/
def Obligations.DecodeInvertsEncode : Prop :=
  ∀ i : Instr, i.wellFormed = true → decode (encode i) = .ok i

/-- R60 to R66: a frame that decodes is exactly the encoding of what it decodes to, so no byte of a frame is dropped. -/
def Obligations.EncodeInvertsFrameDecoding : Prop :=
  ∀ (bytes : List Byte) (i : Instr),
    (decode (.request bytes) = .ok i → encode i = .request bytes) ∧
    (decode (.response bytes) = .ok i → encode i = .response bytes)

/-- R58, R62 to R66, and the frames of 42_serializer.md and 43_deserializer.md: words and frames written out from the spec
decode to the instructions they stand for. -/
def Obligations.WrittenOutWordsDecode : Prop :=
  decode (.command 0x0300000003006B0311#72) = .ok (.loadDesc 17 3 0x006B 3 0) ∧
  decode (.command 0x020000000000000001#72) = .ok (.crcByte 0x01) ∧
  decode (.command 0x06FFFFFFFFFFFFFF42#72) = .ok (.rxPush 0x42) ∧
  decode (.request [0x11, 0x03, 0x00, 0x6B, 0x00, 0x03, 0x76, 0x87]) = .ok (.reqReadHoldingRegisters 0x11 0x006B 3 0x8776) ∧
  decode (.request [0x11, 0x0F, 0x00, 0x13, 0x00, 0x0A, 0x02, 0xCD, 0x01, 0xBF, 0x0B]) =
    .ok (.reqForceMultipleCoils 0x11 0x0013 10 2 [0xCD, 0x01] 0x0BBF) ∧
  decode (.response [0x11, 0x04, 0x02, 0x00, 0x0A, 0xF8, 0xF4]) = .ok (.rspReadInputRegisters 0x11 2 [0x00, 0x0A] 0xF4F8) ∧
  decode (.response [0x11, 0x10, 0x00, 0x01, 0x00, 0x02, 0x12, 0x98]) = .ok (.rspPresetMultipleRegisters 0x11 0x0001 2 0x9812) ∧
  decode (.response [0x11, 0x83, 0x02, 0xC1, 0x34]) = .ok (.rspExcReadHoldingRegisters 0x11 0x02 0x34C1)

/-! ## The step -/

/-- R54: when the host's next action presents a command word that decodes to an instruction, the step is that instruction's
meaning on the state with the action taken from the list; nothing is added around it. -/
def Obligations.StepRunsThePresentedCommand : Prop :=
  ∀ (s : State) (w : CommandWord) (rest : List HostAction) (i : Instr),
    s.hostActions = .command w :: rest → decode (.command w) = .ok i → step s = exec i { s with hostActions := rest }

/-- R57, R157: a command word whose opcode is 0x08 to 0xFF is refused, in every state. That the faulted block, which the spec
says ignores every command (R154), refuses it too is the model's choice (log entry 8). -/
def Obligations.ReservedOpcodesAreRefused : Prop :=
  ∀ (s : State) (w : CommandWord) (rest : List HostAction),
    s.hostActions = .command w :: rest → 0x08 ≤ (w.extractLsb' 64 8).toNat →
      step s = .refused (.reservedCommand (w.extractLsb' 64 8))

/-- R171, R172, R36: RESET gives every register that has a reset value that value, leaves `BUFMEM` and the parameters, and
is never refused; the power-up state holds the same values and an unwritten `BUFMEM`. -/
def Obligations.ResetGivesTheResetValues : Prop :=
  (∀ (s : State) (rest : List HostAction), s.hostActions = .reset :: rest →
    ∃ t, step s = .next t ∧ t.crc = 0xFFFF#16 ∧ t.status = 0#32 ∧ t.descLoaded = false ∧ t.txLen = 0#8 ∧ t.rxLen = 0#8 ∧
      t.bufMem = s.bufMem ∧ t.cfg = s.cfg ∧ t.hostActions = rest) ∧
  State.reset.crc = 0xFFFF#16 ∧ State.reset.status = 0#32 ∧ State.reset.descLoaded = false ∧ State.reset.txLen = 0#8 ∧
    State.reset.rxLen = 0#8 ∧ ∀ a, memGet State.reset.bufMem a = none

/-- R33, R42, R51: the host's write of a word in range reads back, leaves every other word and all of the block alone, and
is not stopped by the fault state; outside `BUFMEM` there is no word (the model's stop, log entry 9). That it holds whether
or not the host keeps the in-flight buffer contract is the model's choice (log entry 19). -/
def Obligations.HostWriteReadsBack : Prop :=
  ∀ (s : State) (a v : Word) (rest : List HostAction), s.hostActions = .hostWr a v :: rest →
    (a.toNat < s.cfg.bufWords →
      ∃ t, step s = .next t ∧ t = { s with bufMem := t.bufMem, hostActions := rest } ∧ memGet t.bufMem a.toNat = some v ∧
        hostReadWord a t = .ok v ∧ ∀ b, b ≠ a.toNat → memGet t.bufMem b = memGet s.bufMem b) ∧
    (s.cfg.bufWords ≤ a.toNat → step s = .fault .hostAddress)

/-- R28, R32, R35: a register read returns the register, zero-extended, and has no side effect. `TXBUF[i]` at or past `TXLEN`,
or a descriptor register with no LOAD_DESC since reset, has no value, and reading it is a fault of the host's program. That
the read of `RXBUF[i]` at or past `RXLEN` (`any value`, U9) goes on and returns some byte is the model's choice (log entries
9 and 17), and no clause says which byte. -/
def Obligations.HostRegisterReadsHaveNoSideEffect : Prop :=
  ∀ (s : State) (r : HostRegister) (rest : List HostAction), s.hostActions = .readRegister r :: rest →
    (r = .crc → hostReadRegister r s = .ok (s.crc.setWidth 32)) ∧
    (r = .status → hostReadRegister r s = .ok s.status) ∧
    (r = .txLen → hostReadRegister r s = .ok (s.txLen.setWidth 32)) ∧
    (r = .rxLen → hostReadRegister r s = .ok (s.rxLen.setWidth 32)) ∧
    (∀ i : Fin 128, r = .txBuf i → hostReadRegister r s =
      if i.val < s.txLen.toNat then .ok (s.txBuf[i.val].setWidth 32) else .error .hostReadUndefined) ∧
    (∀ i : Fin 128, r = .rxBuf i → ∃ b : Byte, hostReadRegister r s = .ok (b.setWidth 32) ∧
      (i.val < s.rxLen.toNat → b = s.rxBuf[i.val])) ∧
    (r = .dSlave → hostReadRegister r s = if s.descLoaded then .ok (s.dSlave.setWidth 32) else .error .hostReadUndefined) ∧
    (r = .dFunc → hostReadRegister r s = if s.descLoaded then .ok (s.dFunc.setWidth 32) else .error .hostReadUndefined) ∧
    (r = .dAddr → hostReadRegister r s = if s.descLoaded then .ok (s.dAddr.setWidth 32) else .error .hostReadUndefined) ∧
    (r = .dCount → hostReadRegister r s = if s.descLoaded then .ok (s.dCount.setWidth 32) else .error .hostReadUndefined) ∧
    (r = .dBase → hostReadRegister r s = if s.descLoaded then .ok (s.dBase.setWidth 32) else .error .hostReadUndefined) ∧
    (∀ v, hostReadRegister r s = .ok v → step s = .next { s with hostActions := rest }) ∧
    ∀ f, hostReadRegister r s = .error f → step s = .fault f

/-- R32, R37, R49: a HOST_RD of a written word returns it and has no side effect. A word never written holds no value; that
its read goes on and returns some word is the model's choice (log entries 9 and 17), and so is the stop outside `BUFMEM`,
where there is no word (log entry 9). So is that a read which breaks the in-flight buffer contract is a move (log entry 19). -/
def Obligations.HostReadHasNoSideEffect : Prop :=
  ∀ (s : State) (a : Word) (rest : List HostAction), s.hostActions = .hostRd a :: rest →
    (∀ w, a.toNat < s.cfg.bufWords → memGet s.bufMem a.toNat = some w →
      hostReadWord a s = .ok w ∧ step s = .next { s with hostActions := rest }) ∧
    (a.toNat < s.cfg.bufWords → memGet s.bufMem a.toNat = none →
      ∃ w, hostReadWord a s = .ok w ∧ step s = .next { s with hostActions := rest }) ∧
    (s.cfg.bufWords ≤ a.toNat → step s = .fault .hostAddress)

/-! ## Control and descriptor -/

/-- R79: opcode 0x00 is NOP whatever its argument, and NOP writes nothing, whether or not the block is faulted. -/
def Obligations.NopWritesNothing : Prop :=
  (∀ arg : BitVec 64, decode (.command (0x00#8 ++ arg)) = .ok .nop) ∧ ∀ s : State, exec .nop s = .next s

/-- R80: opcode 0x03 is LOAD_DESC with its five fields, which writes the five descriptor registers and `DESC_LOADED`,
unchecked, and nothing else; an illegal descriptor so loaded faults at the next BUILD or VALIDATE. -/
def Obligations.LoadDescWritesTheDescriptor : Prop :=
  (∀ s : State, s.faulted = false → s.descLoaded = true → validDesc s.dSlave s.dFunc s.dCount = false →
    (∃ t, exec .build s = .next t ∧ FaultEntered s t 2#2) ∧ ∃ t, exec .validate s = .next t ∧ FaultEntered s t 2#2) ∧
  (∀ arg : BitVec 64, decode (.command (0x03#8 ++ arg)) =
    .ok (.loadDesc (arg.extractLsb' 0 8) (arg.extractLsb' 8 8) (arg.extractLsb' 16 16) (arg.extractLsb' 32 16)
      (arg.extractLsb' 48 16))) ∧
  ∀ (s : State) (slave func : Byte) (addr count base : Word), s.faulted = false →
    exec (.loadDesc slave func addr count base) s =
      .next { s with
        dSlave := slave
        dFunc := func
        dAddr := addr
        dCount := count
        dBase := base
        descLoaded := true }

/-- R82, R83, R84, R85: a descriptor is valid exactly when the slave, function, broadcast and count checks hold. The least
count 1 and the largest count 952 of function 15 are the spec's decision D12, not its source's (log entry 12). -/
def Obligations.ValidDescriptorsAreTheSpecs : Prop :=
  ∀ (slave f : Byte) (count : Word), validDesc slave f count = true ↔
    slave.toNat ≤ 247 ∧
    (f = 1#8 ∨ f = 2#8 ∨ f = 3#8 ∨ f = 4#8 ∨ f = 15#8 ∨ f = 16#8) ∧
    (slave = 0#8 → f = 15#8 ∨ f = 16#8) ∧
    1 ≤ count.toNat ∧
    (f = 1#8 ∨ f = 2#8 ∨ f = 3#8 ∨ f = 4#8 → count.toNat ≤ 61) ∧
    (f = 15#8 → count.toNat ≤ 952) ∧
    (f = 16#8 → count.toNat ≤ 59)

/-! ## CRC -/

/-- R94: `crc_update`, its five example values, and 0xA001 as the bit reversal of 0x8005. -/
def Obligations.CrcUpdateIsEightShifts : Prop :=
  (∀ (c : Word) (b : Byte), crcUpdate c b =
    (List.range 8).foldl (fun (x : Word) _ => if x.getLsbD 0 = true then (x >>> 1) ^^^ 0xA001#16 else x >>> 1)
      (c ^^^ b.setWidth 16)) ∧
  crcUpdate 0xFFFF 0x00 = 0x40BF ∧ crcUpdate 0xFFFF 0x01 = 0x807E ∧ crcUpdate 0xFFFF 0xFF = 0x00FF ∧
  crcUpdate 0x0000 0x00 = 0x0000 ∧ crcUpdate 0x0000 0x01 = 0xC0C1 ∧
  ∀ k, k < 16 → (0xA001#16).getLsbD k = (0x8005#16).getLsbD (15 - k)

/-- R95: CRC_INIT writes `CRC` with 0xFFFF and nothing else; twice equals once; while faulted it is ignored. The value is the
spec's decision D6, which it marks as general knowledge (log entry 12). -/
def Obligations.CrcInitLoadsTheStartValue : Prop :=
  ∀ s : State,
    (s.faulted = false →
      exec .crcInit s = .next { s with crc := 0xFFFF#16 } ∧
      exec .crcInit { s with crc := 0xFFFF#16 } = .next { s with crc := 0xFFFF#16 }) ∧
    (s.faulted = true → exec .crcInit s = .next s)

/-- R96: CRC_BYTE folds its byte into `CRC` and writes nothing else; from 0 a zero byte leaves 0. -/
def Obligations.CrcByteFoldsOneByte : Prop :=
  ∀ (s : State) (b : Byte), s.faulted = false →
    exec (.crcByte b) s = .next { s with crc := crcUpdate s.crc b } ∧
    (s.crc = 0#16 → b = 0#8 → exec (.crcByte b) s = .next s)

/-- R96 (its corner case, expected to fail): a zero byte changes every non-zero `CRC`. The rule's own pseudocode, R94, leaves
0xC001 as it is (log entry 15). -/
def Obligations.ZeroByteChangesEveryNonZeroCrc : Prop :=
  ∀ s t : State, s.faulted = false → s.crc ≠ 0#16 → exec (.crcByte 0#8) s = .next t → t.crc ≠ s.crc

/-- R97, R59: from any state that is not faulted, CRC_INIT and one CRC_BYTE a byte leave `CRC` at `crc16` of the bytes and
change nothing else of the block. -/
def Obligations.IncrementalCrcIsCrc16 : Prop :=
  ∀ (s : State) (bs : List Byte) (rest : List HostAction), s.faulted = false →
    s.hostActions = crcBytesActions bs ++ rest →
      Host.Core.run core (bs.length + 1) s = .next { s with crc := crc16 bs, hostActions := rest }

/-- R98, R100: a body with its CRC appended, low byte first, always checks, and the CRC of the whole frame is 0. -/
def Obligations.CrcRoundTrip : Prop :=
  ∀ body : List Byte,
    crcOk (body ++ [(crc16 body).extractLsb' 0 8, (crc16 body).extractLsb' 8 8]) = true ∧
    crc16 (body ++ [(crc16 body).extractLsb' 0 8, (crc16 body).extractLsb' 8 8]) = 0#16

/-- R101 (general knowledge in the spec's own words): every change of one bit of a frame makes `crc_ok` false. -/
def Obligations.SingleBitErrorsAreDetected : Prop :=
  ∀ (body : List Byte) (i k : Nat), body.length ≤ 126 → i < body.length + 2 → k < 8 →
    crcOk ((crcFrame body).set i ((crcFrame body).getD i 0 ^^^ (1#8 <<< k))) = false

/-! ## BUILD -/

/-- R106 to R109, R62: BUILD of a valid descriptor of function 1 to 4 writes the eight bytes of the request and starts a new
transaction. No buffer word is read: `BUFMEM` takes no part in the conditions. -/
def Obligations.BuildOfAReadEmitsTheRequest : Prop :=
  ∀ s : State, s.faulted = false → s.descLoaded = true → validDesc s.dSlave s.dFunc s.dCount = true →
    (s.dFunc = 1#8 ∨ s.dFunc = 2#8 ∨ s.dFunc = 3#8 ∨ s.dFunc = 4#8) →
    ∃ t body, exec .build s = .next t ∧
      body = [s.dSlave, s.dFunc, s.dAddr.extractLsb' 8 8, s.dAddr.extractLsb' 0 8, s.dCount.extractLsb' 8 8,
        s.dCount.extractLsb' 0 8] ∧
      t.txBytes = body ++ [(crc16 body).extractLsb' 0 8, (crc16 body).extractLsb' 8 8] ∧ t.txLen = 8#8 ∧
      t.result = 0#3 ∧ t.expectRsp = 1#1 ∧ t.excClassField = 0#2 ∧ t.excCode = 0#8

/-- R110, R112, R46, R63: BUILD of a valid descriptor of function 15 whose buffer words are in range and written. Bit `k mod 8`
of data byte `k div 8` is point `k` as `COIL_LAYOUT` places it, and 0 past the last point. The bit order is the spec's
decision D11 (log entry 12), and that a word only VALIDATE wrote counts as written is the model's choice (log entry 18). -/
def Obligations.BuildOfCoilsPacksThePoints : Prop :=
  ∀ s : State, BuildReady s → s.dFunc = 15#8 →
    ∃ t body data, exec .build s = .next t ∧
      body = [s.dSlave, 0x0F#8, s.dAddr.extractLsb' 8 8, s.dAddr.extractLsb' 0 8, s.dCount.extractLsb' 8 8,
        s.dCount.extractLsb' 0 8, BitVec.ofNat 8 ((s.dCount.toNat + 7) / 8)] ++ data ∧
      t.txBytes = body ++ [(crc16 body).extractLsb' 0 8, (crc16 body).extractLsb' 8 8] ∧
      data.length = (s.dCount.toNat + 7) / 8 ∧
      (∀ k, s.dCount.toNat ≤ k → k < 8 * data.length → (data.getD (k / 8) 0).getLsbD (k % 8) = false) ∧
      (∀ k, k < s.dCount.toNat → ∃ w,
        (s.cfg.coilLayout = .onePerWord → memGet s.bufMem (s.dBase.toNat + k) = some w ∧
          (data.getD (k / 8) 0).getLsbD (k % 8) = decide (w ≠ 0)) ∧
        (s.cfg.coilLayout = .packed16 → memGet s.bufMem (s.dBase.toNat + k / 16) = some w ∧
          (data.getD (k / 8) 0).getLsbD (k % 8) = w.getLsbD (k % 16))) ∧
      t.result = 0#3 ∧ t.expectRsp = (if s.dSlave = 0#8 then 0#1 else 1#1) ∧ t.excClassField = 0#2 ∧ t.excCode = 0#8

/-- R111, R113, R45, R63: BUILD of a valid descriptor of function 16 whose buffer words are in range and written. Register `k`
is sent as its high byte and then its low byte, the spec's decision D9 (log entry 12). That a word only VALIDATE wrote counts
as written is the model's choice (log entry 18). -/
def Obligations.BuildOfRegistersPacksTheWords : Prop :=
  ∀ s : State, BuildReady s → s.dFunc = 16#8 →
    ∃ t body data, exec .build s = .next t ∧
      body = [s.dSlave, 0x10#8, s.dAddr.extractLsb' 8 8, s.dAddr.extractLsb' 0 8, s.dCount.extractLsb' 8 8,
        s.dCount.extractLsb' 0 8, BitVec.ofNat 8 (2 * s.dCount.toNat)] ++ data ∧
      t.txBytes = body ++ [(crc16 body).extractLsb' 0 8, (crc16 body).extractLsb' 8 8] ∧
      data.length = 2 * s.dCount.toNat ∧
      (∀ k, k < s.dCount.toNat → ∃ w, memGet s.bufMem (s.dBase.toNat + k) = some w ∧
        data.getD (2 * k) 0 = w.extractLsb' 8 8 ∧ data.getD (2 * k + 1) 0 = w.extractLsb' 0 8) ∧
      t.result = 0#3 ∧ t.expectRsp = (if s.dSlave = 0#8 then 0#1 else 1#1) ∧ t.excClassField = 0#2 ∧ t.excCode = 0#8

/-- R153, R155, R86, R37: what BUILD does when it does not take its effect, in order of priority: `NO_DESC`, `BAD_DESC`,
`BUF_RANGE` for functions 15 and 16, and the model's stop `UNINIT_BUF`; each sticky fault changes nothing but `FAULT` and
`FAULT_CAUSE`. Otherwise it takes effect: a frame for the descriptor's slave and function whose CRC checks, and the `RESULT`
and `EXPECT_RSP` of a new transaction. A word only VALIDATE wrote counts as written (log entry 18). -/
def Obligations.BuildFaultsInPriorityOrder : Prop :=
  ∀ s : State, s.faulted = false →
    if s.descLoaded = false then ∃ t, exec .build s = .next t ∧ FaultEntered s t 1#2
    else if validDesc s.dSlave s.dFunc s.dCount = false then ∃ t, exec .build s = .next t ∧ FaultEntered s t 2#2
    else if (s.dFunc = 15#8 ∨ s.dFunc = 16#8) ∧ ¬ BufferFits s then ∃ t, exec .build s = .next t ∧ FaultEntered s t 3#2
    else if (s.dFunc = 15#8 ∨ s.dFunc = 16#8) ∧ ¬ BufferWritten s then exec .build s = .fault .uninitBuf
    else
      ∃ t, exec .build s = .next t ∧ t = { s with txBuf := t.txBuf, txLen := t.txLen, status := t.status } ∧
        t.faulted = false ∧ t.result = 0#3 ∧ t.expectRsp = (if s.dSlave = 0#8 then 0#1 else 1#1) ∧
        t.txBytes.getD 0 0 = s.dSlave ∧ t.txBytes.getD 1 0 = s.dFunc ∧ crcOk t.txBytes = true

/-- R114, R105, R28, R34: a BUILD that took its effect starts a new transaction, and its frame. `RESULT` becomes `NONE` and
the exception fields 0; only `TXBUF` below the new `TXLEN`, `TXLEN`, and the
status fields `RESULT`, `EXPECT_RSP`, `EXC_CLASS` and `EXC_CODE` change; every word of `BUFMEM` reads as before. -/
def Obligations.BuildFrame : Prop :=
  ∀ s t : State, exec .build s = .next t → t.faulted = false →
    t = { s with txBuf := t.txBuf, txLen := t.txLen, status := t.status } ∧
    (∀ (k : Nat) (h : k < 128), t.txLen.toNat ≤ k → t.txBuf[k] = s.txBuf[k]) ∧
    t.result = 0#3 ∧ t.excClassField = 0#2 ∧ t.excCode = 0#8 ∧ t.expectRsp = (if s.dSlave = 0#8 then 0#1 else 1#1) ∧
    t.rxOvf = s.rxOvf ∧ FaultFieldsKept s t ∧ ReservedKept s t ∧
    ∀ a, memGet t.bufMem a = memGet s.bufMem a

/-- R117, R70, R69: the length of every frame BUILD writes, at most 128. -/
def Obligations.BuiltFramesFitTheBuffer : Prop :=
  ∀ s t : State, exec .build s = .next t → s.faulted = false → t.faulted = false →
    t.txLen.toNat =
      (if s.dFunc = 15#8 then 9 + (s.dCount.toNat + 7) / 8 else if s.dFunc = 16#8 then 9 + 2 * s.dCount.toNat else 8) ∧
    t.txLen.toNat ≤ 128 ∧ t.txBytes.length = t.txLen.toNat

/-- R118, R116: BUILD is a function of the descriptor registers and the buffer words: two states that agree on these, and on
the parameters, build the same bytes. -/
def Obligations.BuildDependsOnDescriptorAndBufferAlone : Prop :=
  ∀ s s' t t' : State, s'.dSlave = s.dSlave → s'.dFunc = s.dFunc → s'.dAddr = s.dAddr → s'.dCount = s.dCount →
    s'.dBase = s.dBase → s'.cfg = s.cfg → (∀ a, memGet s'.bufMem a = memGet s.bufMem a) →
    s.faulted = false → s'.faulted = false → exec .build s = .next t → exec .build s' = .next t' →
    t.faulted = false → t'.faulted = false → t'.txBytes = t.txBytes

/-- R106 to R111, R62, R63, R21, R115: each of the six request forms, well formed and in range, writes exactly its own frame to
`TXBUF` and the status fields of a new transaction. That a request form is BUILD of its frame is the model's choice (log
entry 1). It covers reqReadCoilStatus, reqReadInputStatus,
reqReadHoldingRegisters, reqReadInputRegisters, reqForceMultipleCoils and reqPresetMultipleRegisters. -/
def Obligations.RequestFormsEmitTheirFrame : Prop :=
  ∀ (i : Instr) (fr : List Byte) (s : State), encode i = .request fr → i.wellFormed = true → s.faulted = false →
    s.descLoaded = true →
    (fr.getD 1 0 = 15#8 ∨ fr.getD 1 0 = 16#8 →
      s.dBase.toNat + bufferWords s.cfg.coilLayout (fr.getD 1 0) (fr.getD 4 0 ++ fr.getD 5 0 : BitVec 16).toNat ≤
        s.cfg.bufWords) →
    ∃ t, exec i s = .next t ∧ t.txBytes = fr ∧ t.txLen.toNat = fr.length ∧ t.result = 0#3 ∧
      t.expectRsp = (if fr.getD 0 0 = 0#8 then 0#1 else 1#1) ∧ t.excClassField = 0#2 ∧ t.excCode = 0#8 ∧
      t = { s with txBuf := t.txBuf, txLen := t.txLen, status := t.status } ∧
      (∀ (k : Nat) (h : k < 128), fr.length ≤ k → t.txBuf[k] = s.txBuf[k]) ∧
      t.rxOvf = s.rxOvf ∧ FaultFieldsKept s t ∧ ReservedKept s t

/-- R105 to R111: whatever BUILD emits is a well-formed request form, and BUILD did what that form does (log entry 1). -/
def Obligations.BuildRunsItsRequestForm : Prop :=
  ∀ s t : State, exec .build s = .next t → s.faulted = false → t.faulted = false →
    ∃ i : Instr, i.wellFormed = true ∧ encode i = .request t.txBytes ∧ exec i s = .next t

/-! ## Receiving -/

/-- R123: opcode 0x05 is RX_CLEAR whatever its argument; it writes `RXLEN`, `RX_OVF` and `RESULT` with 0 and nothing else
(the bytes of `RXBUF` and the exception fields stay), and is ignored while faulted. -/
def Obligations.RxClearEmptiesTheBuffer : Prop :=
  (∀ arg : BitVec 64, decode (.command (0x05#8 ++ arg)) = .ok .rxClear) ∧
  (∀ s : State, s.faulted = true → exec .rxClear s = .next s) ∧
  ∀ s : State, s.faulted = false →
    ∃ t, exec .rxClear s = .next t ∧ t = { s with rxLen := 0#8, status := t.status } ∧ t.rxOvf = 0#1 ∧ t.result = 0#3 ∧
      t.expectRsp = s.expectRsp ∧ t.excClassField = s.excClassField ∧ t.excCode = s.excCode ∧ FaultFieldsKept s t ∧
      ReservedKept s t

/-- R124: opcode 0x06 is RX_PUSH of the argument's low byte. It stores the byte at `RXBUF[RXLEN]` and increments `RXLEN` while
`RXLEN` < 128; otherwise it discards the byte and sets `RX_OVF`, which makes VALIDATE report `FRAME_ERROR`. Nothing else
changes; while faulted it is ignored. -/
def Obligations.RxPushAppendsOrOverflows : Prop :=
  (∀ arg : BitVec 64, decode (.command (0x06#8 ++ arg)) = .ok (.rxPush (arg.extractLsb' 0 8))) ∧
  (∀ (s : State) (b : Byte), s.faulted = true → exec (.rxPush b) s = .next s) ∧
  (∀ s t : State, s.rxOvf = 1#1 → exec .validate s = .next t → t.faulted = false → t.result = 3#3) ∧
  ∀ (s : State) (b : Byte), s.faulted = false →
    if s.rxLen.toNat < 128 then
      ∃ t, exec (.rxPush b) s = .next t ∧ t = { s with rxBuf := t.rxBuf, rxLen := t.rxLen } ∧
        t.rxLen.toNat = s.rxLen.toNat + 1 ∧
        ∀ (k : Nat) (h : k < 128), t.rxBuf[k] = if k = s.rxLen.toNat then b else s.rxBuf[k]
    else
      ∃ t, exec (.rxPush b) s = .next t ∧ t = { s with status := t.status } ∧ t.rxOvf = 1#1 ∧ t.result = s.result ∧
        t.expectRsp = s.expectRsp ∧ t.excClassField = s.excClassField ∧ t.excCode = s.excCode ∧ FaultFieldsKept s t ∧
        ReservedKept s t

/-- R59, R123, R124, R26: RX_CLEAR and one RX_PUSH a byte leave exactly those bytes in `RXBUF` when there are at most 128 of
them; more set `RX_OVF` and keep the first 128. -/
def Obligations.ReceivedFramesAccumulate : Prop :=
  ∀ (s : State) (bs : List Byte) (rest : List HostAction), s.faulted = false →
    s.hostActions = rxFrameActions bs ++ rest →
      ∃ t, Host.Core.run core (bs.length + 1) s = .next t ∧ t.rxBytes = bs.take 128 ∧
        t.rxOvf = (if bs.length ≤ 128 then 0#1 else 1#1) ∧ t.result = 0#3 ∧
        t = { s with rxBuf := t.rxBuf, rxLen := t.rxLen, status := t.status, hostActions := rest }

/-! ## VALIDATE -/

/-- R126, R155: the checks of VALIDATE in order: `NO_DESC`, `BAD_DESC`, `BAD_DESC` for a broadcast, `BUF_RANGE` for functions 1
to 4. Each fault changes nothing but `FAULT` and `FAULT_CAUSE`, whatever the received bytes; otherwise the block is not
faulted and `RESULT` is one of the four verdicts. -/
def Obligations.ValidateFaultsInPriorityOrder : Prop :=
  ∀ s : State, s.faulted = false →
    if s.descLoaded = false then ∃ t, exec .validate s = .next t ∧ FaultEntered s t 1#2
    else if validDesc s.dSlave s.dFunc s.dCount = false then ∃ t, exec .validate s = .next t ∧ FaultEntered s t 2#2
    else if s.dSlave = 0#8 then ∃ t, exec .validate s = .next t ∧ FaultEntered s t 2#2
    else if (s.dFunc = 1#8 ∨ s.dFunc = 2#8 ∨ s.dFunc = 3#8 ∨ s.dFunc = 4#8) ∧ ¬ BufferFits s then
      ∃ t, exec .validate s = .next t ∧ FaultEntered s t 3#2
    else
      ∃ t, exec .validate s = .next t ∧ t.faulted = false ∧
        (t.result = 1#3 ∨ t.result = 2#3 ∨ t.result = 3#3 ∨ t.result = 4#3)

/-- R127, R128, R129, R130, R133, R140, R156: the verdict of VALIDATE on the bytes of `RXBUF`, in the order of R156, and the
exception fields it leaves (R24, R25). The echo check of a write confirmation, address and count high byte first, is the
spec's decision D36, and the class numbers are D18 (log entry 12). -/
def Obligations.ValidateVerdictFollowsThePriority : Prop :=
  ∀ s : State, ValidateReady s →
    ∃ t, exec .validate s = .next t ∧
      t.result =
        (let r := s.rxBytes
         let f := s.dFunc
         let n := s.dCount.toNat
         let normalLength := if f = 1#8 ∨ f = 2#8 then 5 + (n + 7) / 8 else if f = 3#8 ∨ f = 4#8 then 5 + 2 * n else 8
         let expected := if r.getD 1 0 = f ||| 0x80#8 then 5 else normalLength
         if s.rxOvf = 1#1 then 3#3
         else if r.length < 2 then 4#3
         else if r.getD 1 0 ≠ f ∧ r.getD 1 0 ≠ f ||| 0x80#8 then 3#3
         else if r.length < expected then 4#3
         else if expected < r.length then 3#3
         else if crc16 (r.take (r.length - 2)) ≠ (r.getD (r.length - 1) 0 ++ r.getD (r.length - 2) 0 : BitVec 16) then 3#3
         else if r.getD 0 0 ≠ s.dSlave then 3#3
         else if r.getD 1 0 = f ||| 0x80#8 then 2#3
         else if f = 1#8 ∨ f = 2#8 then (if (r.getD 2 0).toNat = (n + 7) / 8 then 1#3 else 3#3)
         else if f = 3#8 ∨ f = 4#8 then (if (r.getD 2 0).toNat = 2 * n then 1#3 else 3#3)
         else if (r.getD 2 0 ++ r.getD 3 0 : BitVec 16) = s.dAddr ∧ (r.getD 4 0 ++ r.getD 5 0 : BitVec 16) = s.dCount then 1#3
         else 3#3) ∧
      (t.result ≠ 2#3 → t.excCode = 0#8 ∧ t.excClassField = 0#2) ∧
      (t.result = 2#3 → t.excCode = s.rxBytes.getD 2 0 ∧
        t.excClassField =
          (let code := s.rxBytes.getD 2 0
           if code = 1#8 then 0#2 else if code = 2#8 then 1#2 else if code = 3#8 then 2#2 else 3#2))

/-- R125, R34, R142: the frame of VALIDATE. Only the status fields `RESULT`, `EXC_CLASS` and `EXC_CODE`, the fault fields of a
fault, and words of `BUFMEM` can change; a word changes only on `SUCCESS` of functions 1 to 4 and only among the
transaction's words. -/
def Obligations.ValidateFrame : Prop :=
  ∀ s t : State, exec .validate s = .next t →
    t = { s with status := t.status, bufMem := t.bufMem } ∧ t.rxOvf = s.rxOvf ∧ t.expectRsp = s.expectRsp ∧
    ReservedKept s t ∧
    (t.faulted = s.faulted → FaultFieldsKept s t) ∧
    (¬ (s.faulted = false ∧ t.faulted = false ∧ t.result = 1#3 ∧ (s.dFunc = 1#8 ∨ s.dFunc = 2#8 ∨ s.dFunc = 3#8 ∨ s.dFunc = 4#8)) →
      ∀ a, memGet t.bufMem a = memGet s.bufMem a) ∧
    ∀ a, a < s.dBase.toNat ∨ s.dBase.toNat + bufferWords s.cfg.coilLayout s.dFunc s.dCount.toNat ≤ a →
      memGet t.bufMem a = memGet s.bufMem a

/-- R49, R143: VALIDATE executed again gives the same `STATUS`, every bit of it, and the same `BUFMEM` words, and changes
nothing else. -/
def Obligations.ValidateIsIdempotent : Prop :=
  ∀ s t : State, exec .validate s = .next t →
    ∃ u, exec .validate t = .next u ∧ u = { t with status := u.status, bufMem := u.bufMem } ∧
      u.status = t.status ∧
      ∀ a, memGet u.bufMem a = memGet t.bufMem a

/-- R143, R128: every proper prefix of an accepted response whose first two bytes have arrived, and every shorter one, is
`INCOMPLETE`, and no buffer word is written. -/
def Obligations.PrefixesAreIncomplete : Prop :=
  ∀ (s t u : State) (m : Nat), ValidateReady s → exec .validate s = .next t → t.result = 1#3 ∨ t.result = 2#3 →
    m < s.rxBytes.length → exec .validate { s with rxLen := BitVec.ofNat 8 m } = .next u →
    u.result = 4#3 ∧ u.bufMem = s.bufMem

/-- R125: VALIDATE of the bytes of a response form is that form's meaning, faults among it. It covers the twelve response
forms (log entry 1). -/
def Obligations.ValidateRunsItsResponseForm : Prop :=
  ∀ (s : State) (i : Instr), encode i = .response s.rxBytes → exec .validate s = exec i s

/-- R134, R135, R138, R46: a full-length, well-checked response of points is `SUCCESS`, and its points are unpacked as
`COIL_LAYOUT` says: one word 0 or 1 a point, or sixteen points a word with the bits past `count` 0 (the spec's decisions
D11 and D32, log entries 12 and 13). That a response form is VALIDATE of its bytes is the model's choice (log entry 1). It
covers rspReadCoilStatus and rspReadInputStatus. -/
def Obligations.PointResponsesAreUnpacked : Prop :=
  ∀ (s : State) (i : Instr) (r : List Byte), ValidateReady s → s.rxOvf = 0#1 → (s.dFunc = 1#8 ∨ s.dFunc = 2#8) →
    encode i = .response r → r.length = 5 + (s.dCount.toNat + 7) / 8 → r.getD 0 0 = s.dSlave → r.getD 1 0 = s.dFunc →
    (r.getD 2 0).toNat = (s.dCount.toNat + 7) / 8 → crcOk r = true →
    ∃ t, exec i s = .next t ∧ t = { s with status := t.status, bufMem := t.bufMem } ∧
      t.result = 1#3 ∧ t.excClassField = 0#2 ∧ t.excCode = 0#8 ∧ t.rxOvf = s.rxOvf ∧ t.expectRsp = s.expectRsp ∧
      FaultFieldsKept s t ∧ ReservedKept s t ∧
      (s.cfg.coilLayout = .onePerWord →
        (∀ k, k < s.dCount.toNat → memGet t.bufMem (s.dBase.toNat + k) =
          some (if (r.getD (3 + k / 8) 0).getLsbD (k % 8) = true then 1#16 else 0#16)) ∧
        ∀ a, a < s.dBase.toNat ∨ s.dBase.toNat + s.dCount.toNat ≤ a → memGet t.bufMem a = memGet s.bufMem a) ∧
      (s.cfg.coilLayout = .packed16 →
        (∀ j, j < (s.dCount.toNat + 15) / 16 → ∃ w, memGet t.bufMem (s.dBase.toNat + j) = some w ∧
          ∀ b, b < 16 → w.getLsbD b =
            (decide (16 * j + b < s.dCount.toNat) &&
              (r.getD (3 + (16 * j + b) / 8) 0).getLsbD ((16 * j + b) % 8))) ∧
        ∀ a, a < s.dBase.toNat ∨ s.dBase.toNat + (s.dCount.toNat + 15) / 16 ≤ a → memGet t.bufMem a = memGet s.bufMem a)

/-- R136, R137, R139, R45: a full-length, well-checked response of registers is `SUCCESS`, and register `k` is written as one
big-endian word. That a response form is VALIDATE of its bytes is the model's choice (log entry 1). It covers
rspReadHoldingRegisters and rspReadInputRegisters. -/
def Obligations.RegisterResponsesAreUnpacked : Prop :=
  ∀ (s : State) (i : Instr) (r : List Byte), ValidateReady s → s.rxOvf = 0#1 → (s.dFunc = 3#8 ∨ s.dFunc = 4#8) →
    encode i = .response r → r.length = 5 + 2 * s.dCount.toNat → r.getD 0 0 = s.dSlave → r.getD 1 0 = s.dFunc →
    (r.getD 2 0).toNat = 2 * s.dCount.toNat → crcOk r = true →
    ∃ t, exec i s = .next t ∧ t = { s with status := t.status, bufMem := t.bufMem } ∧
      t.result = 1#3 ∧ t.excClassField = 0#2 ∧ t.excCode = 0#8 ∧ t.rxOvf = s.rxOvf ∧ t.expectRsp = s.expectRsp ∧
      FaultFieldsKept s t ∧ ReservedKept s t ∧
      (∀ k, k < s.dCount.toNat → memGet t.bufMem (s.dBase.toNat + k) =
        some (r.getD (3 + 2 * k) 0 ++ r.getD (4 + 2 * k) 0 : BitVec 16)) ∧
      ∀ a, a < s.dBase.toNat ∨ s.dBase.toNat + s.dCount.toNat ≤ a → memGet t.bufMem a = memGet s.bufMem a

/-- R140, R141, R65: a well-checked write confirmation is `SUCCESS` when it echoes the request's address and count and
`FRAME_ERROR` otherwise; no buffer word changes. The layout of a confirmation is the spec's decision D36 (log entry 12), and
that a response form is VALIDATE of its bytes is the model's choice (log entry 1). It covers rspForceMultipleCoils and
rspPresetMultipleRegisters. -/
def Obligations.ConfirmationsAreJudgedByTheirEcho : Prop :=
  ∀ (s : State) (slave : Byte) (addr count crc : Word) (i : Instr) (r : List Byte), ValidateReady s → s.rxOvf = 0#1 →
    (s.dFunc = 15#8 ∧ i = .rspForceMultipleCoils slave addr count crc ∨
      s.dFunc = 16#8 ∧ i = .rspPresetMultipleRegisters slave addr count crc) →
    encode i = .response r → slave = s.dSlave → crcOk r = true →
    ∃ t, exec i s = .next t ∧ t = { s with status := t.status } ∧
      t.result = (if addr = s.dAddr ∧ count = s.dCount then 1#3 else 3#3) ∧ t.excClassField = 0#2 ∧ t.excCode = 0#8 ∧
      t.rxOvf = s.rxOvf ∧ t.expectRsp = s.expectRsp ∧ FaultFieldsKept s t ∧ ReservedKept s t

/-- R131, R24, R25, R66, R74: a well-checked exception response to the request's function is `EXCEPTION`, with its raw code and
its class (the class numbers are the spec's decision D18, log entry 12); no buffer word changes. That a response form is
VALIDATE of its bytes is the model's choice (log entry 1). It covers rspExcReadCoilStatus,
rspExcReadInputStatus, rspExcReadHoldingRegisters, rspExcReadInputRegisters, rspExcForceMultipleCoils and
rspExcPresetMultipleRegisters. -/
def Obligations.ExceptionResponsesAreReported : Prop :=
  ∀ (s : State) (i : Instr) (slave code : Byte) (crc : Word), ValidateReady s → s.rxOvf = 0#1 →
    encode i = .response [slave, s.dFunc ||| 0x80#8, code, crc.extractLsb' 0 8, crc.extractLsb' 8 8] → slave = s.dSlave →
    crc = crc16 [slave, s.dFunc ||| 0x80#8, code] →
    ∃ t, exec i s = .next t ∧ t = { s with status := t.status } ∧ t.result = 2#3 ∧ t.excCode = code ∧
      t.excClassField = (if code = 1#8 then 0#2 else if code = 2#8 then 1#2 else if code = 3#8 then 2#2 else 3#2) ∧
      t.rxOvf = s.rxOvf ∧ t.expectRsp = s.expectRsp ∧ FaultFieldsKept s t ∧ ReservedKept s t

/-- R46, R112, R138 (derived): under either layout the coils BUILD packs, received back as a read response, unpack to the
points that were packed. -/
def Obligations.CoilPackingRoundTrip : Prop :=
  ∀ (layout : CoilLayout) (ws : List Word) (n k : Nat) (slave f byteCount : Byte) (crc : Word), k < n →
    wordsPoint layout (unpackCoils layout (readResponseBytes slave f byteCount (packCoils layout ws n) crc) n) k =
      wordsPoint layout ws k

/-- R45, R113, R139 (derived): the registers BUILD packs, received back as a read response, unpack to the same words. -/
def Obligations.RegisterPackingRoundTrip : Prop :=
  ∀ (ws : List Word) (slave f byteCount : Byte) (crc : Word),
    unpackWords (readResponseBytes slave f byteCount (packWords ws) crc) ws.length = ws

/-! ## Faults -/

/-- R154: while `FAULT` = 1 every command writes nothing and is not refused, so that the block stays faulted with its first
cause; reset takes it out. That every frame form passes through the same gate is the model's choice (log entry 1). -/
def Obligations.FaultGateHoldsEveryInstruction : Prop :=
  (∀ (i : Instr) (s : State), s.faulted = true → exec i s = .next s) ∧
  ∀ (s : State) (rest : List HostAction), s.hostActions = .reset :: rest → ∃ t, step s = .next t ∧ t.faulted = false

/-- R152, R153: an instruction that leaves the block faulted when it was not has changed nothing but `FAULT` and
`FAULT_CAUSE`, and the cause is 1, 2 or 3; a frame form is an instruction by log entry 1. -/
def Obligations.FaultsArePrecise : Prop :=
  ∀ (i : Instr) (s t : State), exec i s = .next t → s.faulted = false → t.faulted = true →
    ∃ cause : BitVec 2, cause ≠ 0#2 ∧ FaultEntered s t cause

/-- R153, R185 (derived): no instruction but BUILD and VALIDATE, each as itself or as one of its frame forms (log entry 1), can
turn a good end into one that is not. It is about instructions alone: a refused command word and a stopped host access are
no instruction. -/
def Obligations.OnlyBuildAndValidateFailARun : Prop :=
  ∀ (i : Instr) (s : State), s.faulted = false → goodEnd (exec i s) = false →
    i = .build ∨ i = .validate ∨ ∀ w, encode i ≠ .command w

/-- R30, R154, R171: only RESET leaves the fault state; any other step of a faulted block keeps `STATUS` as it is. -/
def Obligations.OnlyResetLeavesTheFaultState : Prop :=
  ∀ s t : State, s.faulted = true → step s = .next t →
    (∃ rest, s.hostActions = .reset :: rest) ∨ (t.faulted = true ∧ t.status = s.status)

/-! ## Who writes what -/

/-- R18: no instruction but CRC_INIT and CRC_BYTE writes `CRC`. -/
def Obligations.OnlyCrcCommandsWriteCrc : Prop :=
  ∀ (i : Instr) (s t : State), exec i s = .next t → t.crc ≠ s.crc → i = .crcInit ∨ ∃ b, i = .crcByte b

/-- R22, R23, R88: no instruction but LOAD_DESC writes a descriptor register or `DESC_LOADED`. -/
def Obligations.OnlyLoadDescWritesTheDescriptor : Prop :=
  ∀ (i : Instr) (s t : State), exec i s = .next t →
    (∃ slave func addr count base, i = .loadDesc slave func addr count base) ∨
    (t.dSlave = s.dSlave ∧ t.dFunc = s.dFunc ∧ t.dAddr = s.dAddr ∧ t.dCount = s.dCount ∧ t.dBase = s.dBase ∧
      t.descLoaded = s.descLoaded)

/-- R27, R39: no instruction but BUILD, as itself or as one of its request forms, writes `TXBUF` or `TXLEN` (what a frame
form does is log entry 1). -/
def Obligations.OnlyBuildWritesTheTransmitBuffer : Prop :=
  ∀ (i : Instr) (s t : State), exec i s = .next t →
    i = .build ∨ (∃ fr, encode i = .request fr) ∨ (t.txBuf = s.txBuf ∧ t.txLen = s.txLen)

/-- R29, R39: no instruction but RX_PUSH writes `RXBUF`, and none but RX_PUSH and RX_CLEAR writes `RXLEN`. -/
def Obligations.OnlyRxCommandsWriteTheReceiveBuffer : Prop :=
  ∀ (i : Instr) (s t : State), exec i s = .next t →
    (t.rxBuf ≠ s.rxBuf → ∃ b, i = .rxPush b) ∧ (t.rxLen ≠ s.rxLen → i = .rxClear ∨ ∃ b, i = .rxPush b)

/-- R34, R142: no instruction changes a word of `BUFMEM` but VALIDATE, as itself or as one of its response forms (log entry 1),
with verdict `SUCCESS` and function 1 to 4. It is about instructions alone: HOST_WR, which is none, changes words too (R33). -/
def Obligations.OnlySuccessfulReadsWriteBufmem : Prop :=
  ∀ (i : Instr) (s t : State) (a : Nat), exec i s = .next t → memGet t.bufMem a ≠ memGet s.bufMem a →
    (i = .validate ∨ ∃ fr, encode i = .response fr) ∧ t.result = 1#3 ∧
      (s.dFunc = 1#8 ∨ s.dFunc = 2#8 ∨ s.dFunc = 3#8 ∨ s.dFunc = 4#8)

/-- R19, R34: which instructions write the fields of `STATUS` (RESET, which is none, writes them too): `RESULT` by BUILD,
VALIDATE and RX_CLEAR, `EXPECT_RSP` by BUILD, the exception fields by BUILD and VALIDATE, `RX_OVF` by RX_PUSH and RX_CLEAR,
the fault fields by BUILD and VALIDATE (each as itself or as one of its frame forms, log entry 1), the reserved bits by
nothing. -/
def Obligations.StatusFieldsHaveTheirWriters : Prop :=
  ∀ (i : Instr) (s t : State), exec i s = .next t →
    (t.result ≠ s.result → i = .build ∨ i = .validate ∨ i = .rxClear ∨ ∀ w, encode i ≠ .command w) ∧
    (t.expectRsp ≠ s.expectRsp → i = .build ∨ ∃ fr, encode i = .request fr) ∧
    (t.excClassField ≠ s.excClassField ∨ t.excCode ≠ s.excCode → i = .build ∨ i = .validate ∨ ∀ w, encode i ≠ .command w) ∧
    (t.rxOvf ≠ s.rxOvf → i = .rxClear ∨ ∃ b, i = .rxPush b) ∧
    (¬ FaultFieldsKept s t → i = .build ∨ i = .validate ∨ ∀ w, encode i ≠ .command w) ∧
    ReservedKept s t

/-- R38: no step changes the parameters `BUF_WORDS` and `COIL_LAYOUT`. -/
def Obligations.ParametersAreFixed : Prop :=
  ∀ s t : State, step s = .next t → t.cfg = s.cfg

/-! ## The invariant -/

/-- R36, R172: the invariant holds after power-up and reset. -/
def Obligations.InvariantHoldsAtReset : Prop := Inv State.reset

/-- R19, R26, R27, R29, R31, R117 (derived): every step keeps the invariant: `BUFMEM` in canonical form, the reserved bits of
`STATUS` 0 and `RESULT` legal, a fault cause exactly while faulted, the lengths in range, and `TXBUF` empty or holding a
frame whose CRC checks. -/
def Obligations.StepKeepsTheInvariant : Prop :=
  ∀ s t : State, Inv s → step s = .next t → Inv t
end

