-- ==== Sys2Proof/Laws/Decode.lean ====
section
/-! SUPPORT. Small laws of the encodings: taking a joined field apart and putting it together again (spec/30_encoding.md R54,
R55, R68), and the CRC split off a frame (R60). -/
namespace Sys2Proof

/-- The bits of two joined bytes. -/
theorem getLsbD_joinBytes (hi lo : Byte) (i : Nat) :
    (joinBytes hi lo).getLsbD i = if i < 8 then lo.getLsbD i else hi.getLsbD (i - 8) :=
  BitVec.getLsbD_append (x := hi) (y := lo)

@[simp] theorem loByte_joinBytes (hi lo : Byte) : loByte (joinBytes hi lo) = lo := by
  ext i h
  simp [loByte, BitVec.getElem_extractLsb', getLsbD_joinBytes, h]

@[simp] theorem hiByte_joinBytes (hi lo : Byte) : hiByte (joinBytes hi lo) = hi := by
  ext i h
  simp [hiByte, BitVec.getElem_extractLsb', getLsbD_joinBytes, BitVec.getLsbD_eq_getElem h]

@[simp] theorem joinBytes_hiByte_loByte (w : Word) : joinBytes (hiByte w) (loByte w) = w := by
  apply BitVec.eq_of_getLsbD_eq
  intro i h
  rw [getLsbD_joinBytes]
  split
  · rename_i h8
    simp [loByte, h8]
  · rename_i h8
    simp [hiByte, show i - 8 < 8 by omega, show 8 + (i - 8) = i by omega]

/-- The bits of a command word. -/
theorem getLsbD_commandWord (opcode : Byte) (arg : BitVec 64) (i : Nat) :
    (commandWord opcode arg).getLsbD i = if i < 64 then arg.getLsbD i else opcode.getLsbD (i - 64) :=
  BitVec.getLsbD_append (x := opcode) (y := arg)

@[simp] theorem opcodeField_commandWord (opcode : Byte) (arg : BitVec 64) : opcodeField (commandWord opcode arg) = opcode := by
  ext i h
  simp [opcodeField, BitVec.getElem_extractLsb', getLsbD_commandWord, BitVec.getLsbD_eq_getElem h]

@[simp] theorem argField_commandWord (opcode : Byte) (arg : BitVec 64) : argField (commandWord opcode arg) = arg := by
  ext i h
  simp [argField, BitVec.getElem_extractLsb', getLsbD_commandWord, h]

@[simp] theorem argByte0_byteArg (b : Byte) : argByte0 (byteArg b) = b := by
  ext i h
  simp [argByte0, byteArg, BitVec.getElem_extractLsb', show i < 64 by omega,
    BitVec.getLsbD_eq_getElem h]

/-- The bits of the argument of LOAD_DESC. -/
theorem getLsbD_descArg (slave func : Byte) (addr count base : Word) (i : Nat) :
    (descArg slave func addr count base).getLsbD i =
      if i < 8 then slave.getLsbD i
      else if i < 16 then func.getLsbD (i - 8)
      else if i < 32 then addr.getLsbD (i - 16)
      else if i < 48 then count.getLsbD (i - 32)
      else base.getLsbD (i - 48) := by
  have h1 : (base ++ count ++ addr ++ func ++ slave).getLsbD i =
      if i < 8 then slave.getLsbD i else (base ++ count ++ addr ++ func).getLsbD (i - 8) := BitVec.getLsbD_append
  have h2 : (base ++ count ++ addr ++ func).getLsbD (i - 8) =
      if i - 8 < 8 then func.getLsbD (i - 8) else (base ++ count ++ addr).getLsbD (i - 8 - 8) := BitVec.getLsbD_append
  have h3 : (base ++ count ++ addr).getLsbD (i - 8 - 8) =
      if i - 8 - 8 < 16 then addr.getLsbD (i - 8 - 8) else (base ++ count).getLsbD (i - 8 - 8 - 16) := BitVec.getLsbD_append
  have h4 : (base ++ count).getLsbD (i - 8 - 8 - 16) =
      if i - 8 - 8 - 16 < 16 then count.getLsbD (i - 8 - 8 - 16) else base.getLsbD (i - 8 - 8 - 16 - 16) :=
    BitVec.getLsbD_append
  show (base ++ count ++ addr ++ func ++ slave).getLsbD i = _
  rw [h1, h2, h3, h4]
  simp only [Nat.sub_sub, Nat.reduceAdd, show (i - 8 < 8) = (i < 16) by simp; omega,
    show (i - 16 < 16) = (i < 32) by simp; omega, show (i - 32 < 16) = (i < 48) by simp; omega]

/-- Each operand of LOAD_DESC is its field of the argument (R55). -/
theorem descArg_fields (slave func : Byte) (addr count base : Word) :
    argByte0 (descArg slave func addr count base) = slave ∧ argFunc (descArg slave func addr count base) = func ∧
      argAddr (descArg slave func addr count base) = addr ∧ argCount (descArg slave func addr count base) = count ∧
      argBase (descArg slave func addr count base) = base := by
  refine ⟨?_, ?_, ?_, ?_, ?_⟩ <;> ext i h
  · simp [argByte0, BitVec.getElem_extractLsb', getLsbD_descArg, h]
  · simp [argFunc, BitVec.getElem_extractLsb', getLsbD_descArg, show 8 + i < 16 by omega, BitVec.getLsbD_eq_getElem h]
  · simp [argAddr, BitVec.getElem_extractLsb', getLsbD_descArg, show ¬ 16 + i < 8 by omega, show 16 + i < 32 by omega,
      BitVec.getLsbD_eq_getElem h]
  · simp [argCount, BitVec.getElem_extractLsb', getLsbD_descArg, show ¬ 32 + i < 8 by omega, show ¬ 32 + i < 16 by omega,
      show 32 + i < 48 by omega, BitVec.getLsbD_eq_getElem h]
  · simp [argBase, BitVec.getElem_extractLsb', getLsbD_descArg, show ¬ 48 + i < 8 by omega, show ¬ 48 + i < 16 by omega,
      show ¬ 48 + i < 32 by omega, BitVec.getLsbD_eq_getElem h]

/-- The CRC split off a frame is the one appended to it. -/
@[simp] theorem splitCrc_append (d : List Byte) (lo hi : Byte) : splitCrc (d ++ [lo, hi]) = some (d, joinBytes hi lo) := by
  induction d with
  | nil => rfl
  | cons b d ih =>
    cases d with
    | nil => rfl
    | cons c d =>
      simp only [List.cons_append] at ih ⊢
      cases h : d ++ [lo, hi] with
      | nil => simp at h
      | cons x y =>
        rw [h] at ih
        simp [splitCrc, ih]

/-- Bytes whose CRC was split off are the rest with that CRC appended. -/
theorem splitCrc_some : ∀ {l d : List Byte} {c : Word}, splitCrc l = some (d, c) → l = d ++ crcBytes c
  | [], _, _, h => by simp [splitCrc] at h
  | [_], _, _, h => by simp [splitCrc] at h
  | [lo, hi], d, c, h => by
    simp only [splitCrc, Option.some.injEq, Prod.mk.injEq] at h
    obtain ⟨rfl, rfl⟩ := h
    simp [crcBytes]
  | a :: b :: x :: rest, d, c, h => by
    simp only [splitCrc, Option.map_eq_some_iff] at h
    obtain ⟨⟨d', c'⟩, h1, h2⟩ := h
    simp only [Prod.mk.injEq] at h2
    obtain ⟨rfl, rfl⟩ := h2
    rw [splitCrc_some h1]
    rfl

end Sys2Proof
end

