-- ==== Sys2Proof/Laws/State.lean ====
section
/-! SUPPORT. Laws of the state's updates: what each status-field write leaves alone, and how the fields of `STATUS` read
after it (spec/10_state.md R19). -/
namespace Sys2Proof.Machine

/-- Every bit of a status word after a field write. -/
theorem getLsbD_withField {n : Nat} (w : StatusWord) (lo : Nat) (v : BitVec n) (i : Nat) :
    (withField w lo v).getLsbD i =
      if lo ≤ i ∧ i < lo + n ∧ i < 32 then v.getLsbD (i - lo) else w.getLsbD i := by
  unfold withField
  simp only [BitVec.getLsbD_or, BitVec.getLsbD_and, BitVec.getLsbD_not, BitVec.getLsbD_shiftLeft, BitVec.getLsbD_setWidth, BitVec.getLsbD_allOnes]
  by_cases h32 : i < 32
  · by_cases hlo : lo ≤ i
    · by_cases hn : i < lo + n
      · have : i - lo < n := by omega
        have : i - lo < 32 := by omega
        have h2 : ¬ i < lo := by omega
        simp [*]
      · have : ¬ i - lo < n := by omega
        have h3 : v.getLsbD (i - lo) = false := BitVec.getLsbD_of_ge _ _ (by omega)
        simp [*]
    · simp [h32, hlo, show i < lo by omega]
  · have := BitVec.getLsbD_of_ge w i (by omega)
    simp [h32, this]

/-- A field reads as written. -/
theorem field_withField_same {n : Nat} (w : StatusWord) (lo : Nat) (v : BitVec n) (h : lo + n ≤ 32) :
    field (withField w lo v) lo n = v := by
  ext i hi
  simp only [field, BitVec.getElem_extractLsb', getLsbD_withField]
  rw [if_pos (by omega)]
  simp [← BitVec.getLsbD_eq_getElem, show lo + i - lo = i by omega]

/-- A field write leaves a disjoint field alone. -/
theorem field_withField_disjoint {n : Nat} (w : StatusWord) (lo : Nat) (v : BitVec n) (lo' m : Nat)
    (h : lo' + m ≤ lo ∨ lo + n ≤ lo') : field (withField w lo v) lo' m = field w lo' m := by
  ext i hi
  simp only [field, BitVec.getElem_extractLsb', getLsbD_withField]
  rw [if_neg (by omega)]

/-! ### The fields depend on the status word alone -/

theorem State.result_of_status {s t : State} (h : t.status = s.status) : t.result = s.result := by
  simp only [State.result, h]
theorem State.expectRsp_of_status {s t : State} (h : t.status = s.status) : t.expectRsp = s.expectRsp := by
  simp only [State.expectRsp, h]
theorem State.excClassField_of_status {s t : State} (h : t.status = s.status) : t.excClassField = s.excClassField := by
  simp only [State.excClassField, h]
theorem State.rxOvf_of_status {s t : State} (h : t.status = s.status) : t.rxOvf = s.rxOvf := by
  simp only [State.rxOvf, h]
theorem State.faultFlag_of_status {s t : State} (h : t.status = s.status) : t.faultFlag = s.faultFlag := by
  simp only [State.faultFlag, h]
theorem State.faultCause_of_status {s t : State} (h : t.status = s.status) : t.faultCause = s.faultCause := by
  simp only [State.faultCause, h]
theorem State.excCode_of_status {s t : State} (h : t.status = s.status) : t.excCode = s.excCode := by
  simp only [State.excCode, h]
theorem State.faulted_of_status {s t : State} (h : t.status = s.status) : t.faulted = s.faulted := by
  simp only [State.faulted, State.faultFlag, h]

/-! ### `State.setResult` -/

@[simp] theorem State.setResult_crc (v : Verdict) (s : State) : (s.setResult v).crc = s.crc := rfl
@[simp] theorem State.setResult_dSlave (v : Verdict) (s : State) : (s.setResult v).dSlave = s.dSlave := rfl
@[simp] theorem State.setResult_dFunc (v : Verdict) (s : State) : (s.setResult v).dFunc = s.dFunc := rfl
@[simp] theorem State.setResult_dAddr (v : Verdict) (s : State) : (s.setResult v).dAddr = s.dAddr := rfl
@[simp] theorem State.setResult_dCount (v : Verdict) (s : State) : (s.setResult v).dCount = s.dCount := rfl
@[simp] theorem State.setResult_dBase (v : Verdict) (s : State) : (s.setResult v).dBase = s.dBase := rfl
@[simp] theorem State.setResult_descLoaded (v : Verdict) (s : State) : (s.setResult v).descLoaded = s.descLoaded := rfl
@[simp] theorem State.setResult_txBuf (v : Verdict) (s : State) : (s.setResult v).txBuf = s.txBuf := rfl
@[simp] theorem State.setResult_txLen (v : Verdict) (s : State) : (s.setResult v).txLen = s.txLen := rfl
@[simp] theorem State.setResult_rxBuf (v : Verdict) (s : State) : (s.setResult v).rxBuf = s.rxBuf := rfl
@[simp] theorem State.setResult_rxLen (v : Verdict) (s : State) : (s.setResult v).rxLen = s.rxLen := rfl
@[simp] theorem State.setResult_bufMem (v : Verdict) (s : State) : (s.setResult v).bufMem = s.bufMem := rfl
@[simp] theorem State.setResult_cfg (v : Verdict) (s : State) : (s.setResult v).cfg = s.cfg := rfl
@[simp] theorem State.setResult_hostActions (v : Verdict) (s : State) : (s.setResult v).hostActions = s.hostActions := rfl
@[simp] theorem State.setResult_result (v : Verdict) (s : State) : (s.setResult v).result = verdictCode v :=
  field_withField_same _ _ _ (by decide)
@[simp] theorem State.setResult_expectRsp (v : Verdict) (s : State) : (s.setResult v).expectRsp = s.expectRsp :=
  field_withField_disjoint _ _ _ _ _ (by decide)
@[simp] theorem State.setResult_excClassField (v : Verdict) (s : State) : (s.setResult v).excClassField = s.excClassField :=
  field_withField_disjoint _ _ _ _ _ (by decide)
@[simp] theorem State.setResult_rxOvf (v : Verdict) (s : State) : (s.setResult v).rxOvf = s.rxOvf :=
  field_withField_disjoint _ _ _ _ _ (by decide)
@[simp] theorem State.setResult_faultFlag (v : Verdict) (s : State) : (s.setResult v).faultFlag = s.faultFlag :=
  field_withField_disjoint _ _ _ _ _ (by decide)
@[simp] theorem State.setResult_faultCause (v : Verdict) (s : State) : (s.setResult v).faultCause = s.faultCause :=
  field_withField_disjoint _ _ _ _ _ (by decide)
@[simp] theorem State.setResult_excCode (v : Verdict) (s : State) : (s.setResult v).excCode = s.excCode :=
  field_withField_disjoint _ _ _ _ _ (by decide)
@[simp] theorem State.setResult_faulted (v : Verdict) (s : State) : (s.setResult v).faulted = s.faulted := by
  simp [State.faulted]

/-! ### `State.setExpectRsp` -/

@[simp] theorem State.setExpectRsp_crc (b : BitVec 1) (s : State) : (s.setExpectRsp b).crc = s.crc := rfl
@[simp] theorem State.setExpectRsp_dSlave (b : BitVec 1) (s : State) : (s.setExpectRsp b).dSlave = s.dSlave := rfl
@[simp] theorem State.setExpectRsp_dFunc (b : BitVec 1) (s : State) : (s.setExpectRsp b).dFunc = s.dFunc := rfl
@[simp] theorem State.setExpectRsp_dAddr (b : BitVec 1) (s : State) : (s.setExpectRsp b).dAddr = s.dAddr := rfl
@[simp] theorem State.setExpectRsp_dCount (b : BitVec 1) (s : State) : (s.setExpectRsp b).dCount = s.dCount := rfl
@[simp] theorem State.setExpectRsp_dBase (b : BitVec 1) (s : State) : (s.setExpectRsp b).dBase = s.dBase := rfl
@[simp] theorem State.setExpectRsp_descLoaded (b : BitVec 1) (s : State) : (s.setExpectRsp b).descLoaded = s.descLoaded := rfl
@[simp] theorem State.setExpectRsp_txBuf (b : BitVec 1) (s : State) : (s.setExpectRsp b).txBuf = s.txBuf := rfl
@[simp] theorem State.setExpectRsp_txLen (b : BitVec 1) (s : State) : (s.setExpectRsp b).txLen = s.txLen := rfl
@[simp] theorem State.setExpectRsp_rxBuf (b : BitVec 1) (s : State) : (s.setExpectRsp b).rxBuf = s.rxBuf := rfl
@[simp] theorem State.setExpectRsp_rxLen (b : BitVec 1) (s : State) : (s.setExpectRsp b).rxLen = s.rxLen := rfl
@[simp] theorem State.setExpectRsp_bufMem (b : BitVec 1) (s : State) : (s.setExpectRsp b).bufMem = s.bufMem := rfl
@[simp] theorem State.setExpectRsp_cfg (b : BitVec 1) (s : State) : (s.setExpectRsp b).cfg = s.cfg := rfl
@[simp] theorem State.setExpectRsp_hostActions (b : BitVec 1) (s : State) : (s.setExpectRsp b).hostActions = s.hostActions := rfl
@[simp] theorem State.setExpectRsp_result (b : BitVec 1) (s : State) : (s.setExpectRsp b).result = s.result :=
  field_withField_disjoint _ _ _ _ _ (by decide)
@[simp] theorem State.setExpectRsp_expectRsp (b : BitVec 1) (s : State) : (s.setExpectRsp b).expectRsp = b :=
  field_withField_same _ _ _ (by decide)
@[simp] theorem State.setExpectRsp_excClassField (b : BitVec 1) (s : State) : (s.setExpectRsp b).excClassField = s.excClassField :=
  field_withField_disjoint _ _ _ _ _ (by decide)
@[simp] theorem State.setExpectRsp_rxOvf (b : BitVec 1) (s : State) : (s.setExpectRsp b).rxOvf = s.rxOvf :=
  field_withField_disjoint _ _ _ _ _ (by decide)
@[simp] theorem State.setExpectRsp_faultFlag (b : BitVec 1) (s : State) : (s.setExpectRsp b).faultFlag = s.faultFlag :=
  field_withField_disjoint _ _ _ _ _ (by decide)
@[simp] theorem State.setExpectRsp_faultCause (b : BitVec 1) (s : State) : (s.setExpectRsp b).faultCause = s.faultCause :=
  field_withField_disjoint _ _ _ _ _ (by decide)
@[simp] theorem State.setExpectRsp_excCode (b : BitVec 1) (s : State) : (s.setExpectRsp b).excCode = s.excCode :=
  field_withField_disjoint _ _ _ _ _ (by decide)
@[simp] theorem State.setExpectRsp_faulted (b : BitVec 1) (s : State) : (s.setExpectRsp b).faulted = s.faulted := by
  simp [State.faulted]

/-! ### `State.setExcClass` -/

@[simp] theorem State.setExcClass_crc (c : BitVec 2) (s : State) : (s.setExcClass c).crc = s.crc := rfl
@[simp] theorem State.setExcClass_dSlave (c : BitVec 2) (s : State) : (s.setExcClass c).dSlave = s.dSlave := rfl
@[simp] theorem State.setExcClass_dFunc (c : BitVec 2) (s : State) : (s.setExcClass c).dFunc = s.dFunc := rfl
@[simp] theorem State.setExcClass_dAddr (c : BitVec 2) (s : State) : (s.setExcClass c).dAddr = s.dAddr := rfl
@[simp] theorem State.setExcClass_dCount (c : BitVec 2) (s : State) : (s.setExcClass c).dCount = s.dCount := rfl
@[simp] theorem State.setExcClass_dBase (c : BitVec 2) (s : State) : (s.setExcClass c).dBase = s.dBase := rfl
@[simp] theorem State.setExcClass_descLoaded (c : BitVec 2) (s : State) : (s.setExcClass c).descLoaded = s.descLoaded := rfl
@[simp] theorem State.setExcClass_txBuf (c : BitVec 2) (s : State) : (s.setExcClass c).txBuf = s.txBuf := rfl
@[simp] theorem State.setExcClass_txLen (c : BitVec 2) (s : State) : (s.setExcClass c).txLen = s.txLen := rfl
@[simp] theorem State.setExcClass_rxBuf (c : BitVec 2) (s : State) : (s.setExcClass c).rxBuf = s.rxBuf := rfl
@[simp] theorem State.setExcClass_rxLen (c : BitVec 2) (s : State) : (s.setExcClass c).rxLen = s.rxLen := rfl
@[simp] theorem State.setExcClass_bufMem (c : BitVec 2) (s : State) : (s.setExcClass c).bufMem = s.bufMem := rfl
@[simp] theorem State.setExcClass_cfg (c : BitVec 2) (s : State) : (s.setExcClass c).cfg = s.cfg := rfl
@[simp] theorem State.setExcClass_hostActions (c : BitVec 2) (s : State) : (s.setExcClass c).hostActions = s.hostActions := rfl
@[simp] theorem State.setExcClass_result (c : BitVec 2) (s : State) : (s.setExcClass c).result = s.result :=
  field_withField_disjoint _ _ _ _ _ (by decide)
@[simp] theorem State.setExcClass_expectRsp (c : BitVec 2) (s : State) : (s.setExcClass c).expectRsp = s.expectRsp :=
  field_withField_disjoint _ _ _ _ _ (by decide)
@[simp] theorem State.setExcClass_excClassField (c : BitVec 2) (s : State) : (s.setExcClass c).excClassField = c :=
  field_withField_same _ _ _ (by decide)
@[simp] theorem State.setExcClass_rxOvf (c : BitVec 2) (s : State) : (s.setExcClass c).rxOvf = s.rxOvf :=
  field_withField_disjoint _ _ _ _ _ (by decide)
@[simp] theorem State.setExcClass_faultFlag (c : BitVec 2) (s : State) : (s.setExcClass c).faultFlag = s.faultFlag :=
  field_withField_disjoint _ _ _ _ _ (by decide)
@[simp] theorem State.setExcClass_faultCause (c : BitVec 2) (s : State) : (s.setExcClass c).faultCause = s.faultCause :=
  field_withField_disjoint _ _ _ _ _ (by decide)
@[simp] theorem State.setExcClass_excCode (c : BitVec 2) (s : State) : (s.setExcClass c).excCode = s.excCode :=
  field_withField_disjoint _ _ _ _ _ (by decide)
@[simp] theorem State.setExcClass_faulted (c : BitVec 2) (s : State) : (s.setExcClass c).faulted = s.faulted := by
  simp [State.faulted]

/-! ### `State.setRxOvf` -/

@[simp] theorem State.setRxOvf_crc (b : BitVec 1) (s : State) : (s.setRxOvf b).crc = s.crc := rfl
@[simp] theorem State.setRxOvf_dSlave (b : BitVec 1) (s : State) : (s.setRxOvf b).dSlave = s.dSlave := rfl
@[simp] theorem State.setRxOvf_dFunc (b : BitVec 1) (s : State) : (s.setRxOvf b).dFunc = s.dFunc := rfl
@[simp] theorem State.setRxOvf_dAddr (b : BitVec 1) (s : State) : (s.setRxOvf b).dAddr = s.dAddr := rfl
@[simp] theorem State.setRxOvf_dCount (b : BitVec 1) (s : State) : (s.setRxOvf b).dCount = s.dCount := rfl
@[simp] theorem State.setRxOvf_dBase (b : BitVec 1) (s : State) : (s.setRxOvf b).dBase = s.dBase := rfl
@[simp] theorem State.setRxOvf_descLoaded (b : BitVec 1) (s : State) : (s.setRxOvf b).descLoaded = s.descLoaded := rfl
@[simp] theorem State.setRxOvf_txBuf (b : BitVec 1) (s : State) : (s.setRxOvf b).txBuf = s.txBuf := rfl
@[simp] theorem State.setRxOvf_txLen (b : BitVec 1) (s : State) : (s.setRxOvf b).txLen = s.txLen := rfl
@[simp] theorem State.setRxOvf_rxBuf (b : BitVec 1) (s : State) : (s.setRxOvf b).rxBuf = s.rxBuf := rfl
@[simp] theorem State.setRxOvf_rxLen (b : BitVec 1) (s : State) : (s.setRxOvf b).rxLen = s.rxLen := rfl
@[simp] theorem State.setRxOvf_bufMem (b : BitVec 1) (s : State) : (s.setRxOvf b).bufMem = s.bufMem := rfl
@[simp] theorem State.setRxOvf_cfg (b : BitVec 1) (s : State) : (s.setRxOvf b).cfg = s.cfg := rfl
@[simp] theorem State.setRxOvf_hostActions (b : BitVec 1) (s : State) : (s.setRxOvf b).hostActions = s.hostActions := rfl
@[simp] theorem State.setRxOvf_result (b : BitVec 1) (s : State) : (s.setRxOvf b).result = s.result :=
  field_withField_disjoint _ _ _ _ _ (by decide)
@[simp] theorem State.setRxOvf_expectRsp (b : BitVec 1) (s : State) : (s.setRxOvf b).expectRsp = s.expectRsp :=
  field_withField_disjoint _ _ _ _ _ (by decide)
@[simp] theorem State.setRxOvf_excClassField (b : BitVec 1) (s : State) : (s.setRxOvf b).excClassField = s.excClassField :=
  field_withField_disjoint _ _ _ _ _ (by decide)
@[simp] theorem State.setRxOvf_rxOvf (b : BitVec 1) (s : State) : (s.setRxOvf b).rxOvf = b :=
  field_withField_same _ _ _ (by decide)
@[simp] theorem State.setRxOvf_faultFlag (b : BitVec 1) (s : State) : (s.setRxOvf b).faultFlag = s.faultFlag :=
  field_withField_disjoint _ _ _ _ _ (by decide)
@[simp] theorem State.setRxOvf_faultCause (b : BitVec 1) (s : State) : (s.setRxOvf b).faultCause = s.faultCause :=
  field_withField_disjoint _ _ _ _ _ (by decide)
@[simp] theorem State.setRxOvf_excCode (b : BitVec 1) (s : State) : (s.setRxOvf b).excCode = s.excCode :=
  field_withField_disjoint _ _ _ _ _ (by decide)
@[simp] theorem State.setRxOvf_faulted (b : BitVec 1) (s : State) : (s.setRxOvf b).faulted = s.faulted := by
  simp [State.faulted]

/-! ### `State.setFaultFlag` -/

@[simp] theorem State.setFaultFlag_crc (b : BitVec 1) (s : State) : (s.setFaultFlag b).crc = s.crc := rfl
@[simp] theorem State.setFaultFlag_dSlave (b : BitVec 1) (s : State) : (s.setFaultFlag b).dSlave = s.dSlave := rfl
@[simp] theorem State.setFaultFlag_dFunc (b : BitVec 1) (s : State) : (s.setFaultFlag b).dFunc = s.dFunc := rfl
@[simp] theorem State.setFaultFlag_dAddr (b : BitVec 1) (s : State) : (s.setFaultFlag b).dAddr = s.dAddr := rfl
@[simp] theorem State.setFaultFlag_dCount (b : BitVec 1) (s : State) : (s.setFaultFlag b).dCount = s.dCount := rfl
@[simp] theorem State.setFaultFlag_dBase (b : BitVec 1) (s : State) : (s.setFaultFlag b).dBase = s.dBase := rfl
@[simp] theorem State.setFaultFlag_descLoaded (b : BitVec 1) (s : State) : (s.setFaultFlag b).descLoaded = s.descLoaded := rfl
@[simp] theorem State.setFaultFlag_txBuf (b : BitVec 1) (s : State) : (s.setFaultFlag b).txBuf = s.txBuf := rfl
@[simp] theorem State.setFaultFlag_txLen (b : BitVec 1) (s : State) : (s.setFaultFlag b).txLen = s.txLen := rfl
@[simp] theorem State.setFaultFlag_rxBuf (b : BitVec 1) (s : State) : (s.setFaultFlag b).rxBuf = s.rxBuf := rfl
@[simp] theorem State.setFaultFlag_rxLen (b : BitVec 1) (s : State) : (s.setFaultFlag b).rxLen = s.rxLen := rfl
@[simp] theorem State.setFaultFlag_bufMem (b : BitVec 1) (s : State) : (s.setFaultFlag b).bufMem = s.bufMem := rfl
@[simp] theorem State.setFaultFlag_cfg (b : BitVec 1) (s : State) : (s.setFaultFlag b).cfg = s.cfg := rfl
@[simp] theorem State.setFaultFlag_hostActions (b : BitVec 1) (s : State) : (s.setFaultFlag b).hostActions = s.hostActions := rfl
@[simp] theorem State.setFaultFlag_result (b : BitVec 1) (s : State) : (s.setFaultFlag b).result = s.result :=
  field_withField_disjoint _ _ _ _ _ (by decide)
@[simp] theorem State.setFaultFlag_expectRsp (b : BitVec 1) (s : State) : (s.setFaultFlag b).expectRsp = s.expectRsp :=
  field_withField_disjoint _ _ _ _ _ (by decide)
@[simp] theorem State.setFaultFlag_excClassField (b : BitVec 1) (s : State) : (s.setFaultFlag b).excClassField = s.excClassField :=
  field_withField_disjoint _ _ _ _ _ (by decide)
@[simp] theorem State.setFaultFlag_rxOvf (b : BitVec 1) (s : State) : (s.setFaultFlag b).rxOvf = s.rxOvf :=
  field_withField_disjoint _ _ _ _ _ (by decide)
@[simp] theorem State.setFaultFlag_faultFlag (b : BitVec 1) (s : State) : (s.setFaultFlag b).faultFlag = b :=
  field_withField_same _ _ _ (by decide)
@[simp] theorem State.setFaultFlag_faultCause (b : BitVec 1) (s : State) : (s.setFaultFlag b).faultCause = s.faultCause :=
  field_withField_disjoint _ _ _ _ _ (by decide)
@[simp] theorem State.setFaultFlag_excCode (b : BitVec 1) (s : State) : (s.setFaultFlag b).excCode = s.excCode :=
  field_withField_disjoint _ _ _ _ _ (by decide)
@[simp] theorem State.setFaultFlag_faulted (b : BitVec 1) (s : State) : (s.setFaultFlag b).faulted = (b == 1#1) := by
  simp [State.faulted]

/-! ### `State.setFaultCause` -/

@[simp] theorem State.setFaultCause_crc (c : BitVec 2) (s : State) : (s.setFaultCause c).crc = s.crc := rfl
@[simp] theorem State.setFaultCause_dSlave (c : BitVec 2) (s : State) : (s.setFaultCause c).dSlave = s.dSlave := rfl
@[simp] theorem State.setFaultCause_dFunc (c : BitVec 2) (s : State) : (s.setFaultCause c).dFunc = s.dFunc := rfl
@[simp] theorem State.setFaultCause_dAddr (c : BitVec 2) (s : State) : (s.setFaultCause c).dAddr = s.dAddr := rfl
@[simp] theorem State.setFaultCause_dCount (c : BitVec 2) (s : State) : (s.setFaultCause c).dCount = s.dCount := rfl
@[simp] theorem State.setFaultCause_dBase (c : BitVec 2) (s : State) : (s.setFaultCause c).dBase = s.dBase := rfl
@[simp] theorem State.setFaultCause_descLoaded (c : BitVec 2) (s : State) : (s.setFaultCause c).descLoaded = s.descLoaded := rfl
@[simp] theorem State.setFaultCause_txBuf (c : BitVec 2) (s : State) : (s.setFaultCause c).txBuf = s.txBuf := rfl
@[simp] theorem State.setFaultCause_txLen (c : BitVec 2) (s : State) : (s.setFaultCause c).txLen = s.txLen := rfl
@[simp] theorem State.setFaultCause_rxBuf (c : BitVec 2) (s : State) : (s.setFaultCause c).rxBuf = s.rxBuf := rfl
@[simp] theorem State.setFaultCause_rxLen (c : BitVec 2) (s : State) : (s.setFaultCause c).rxLen = s.rxLen := rfl
@[simp] theorem State.setFaultCause_bufMem (c : BitVec 2) (s : State) : (s.setFaultCause c).bufMem = s.bufMem := rfl
@[simp] theorem State.setFaultCause_cfg (c : BitVec 2) (s : State) : (s.setFaultCause c).cfg = s.cfg := rfl
@[simp] theorem State.setFaultCause_hostActions (c : BitVec 2) (s : State) : (s.setFaultCause c).hostActions = s.hostActions := rfl
@[simp] theorem State.setFaultCause_result (c : BitVec 2) (s : State) : (s.setFaultCause c).result = s.result :=
  field_withField_disjoint _ _ _ _ _ (by decide)
@[simp] theorem State.setFaultCause_expectRsp (c : BitVec 2) (s : State) : (s.setFaultCause c).expectRsp = s.expectRsp :=
  field_withField_disjoint _ _ _ _ _ (by decide)
@[simp] theorem State.setFaultCause_excClassField (c : BitVec 2) (s : State) : (s.setFaultCause c).excClassField = s.excClassField :=
  field_withField_disjoint _ _ _ _ _ (by decide)
@[simp] theorem State.setFaultCause_rxOvf (c : BitVec 2) (s : State) : (s.setFaultCause c).rxOvf = s.rxOvf :=
  field_withField_disjoint _ _ _ _ _ (by decide)
@[simp] theorem State.setFaultCause_faultFlag (c : BitVec 2) (s : State) : (s.setFaultCause c).faultFlag = s.faultFlag :=
  field_withField_disjoint _ _ _ _ _ (by decide)
@[simp] theorem State.setFaultCause_faultCause (c : BitVec 2) (s : State) : (s.setFaultCause c).faultCause = c :=
  field_withField_same _ _ _ (by decide)
@[simp] theorem State.setFaultCause_excCode (c : BitVec 2) (s : State) : (s.setFaultCause c).excCode = s.excCode :=
  field_withField_disjoint _ _ _ _ _ (by decide)
@[simp] theorem State.setFaultCause_faulted (c : BitVec 2) (s : State) : (s.setFaultCause c).faulted = s.faulted := by
  simp [State.faulted]

/-! ### `State.setExcCode` -/

@[simp] theorem State.setExcCode_crc (b : Byte) (s : State) : (s.setExcCode b).crc = s.crc := rfl
@[simp] theorem State.setExcCode_dSlave (b : Byte) (s : State) : (s.setExcCode b).dSlave = s.dSlave := rfl
@[simp] theorem State.setExcCode_dFunc (b : Byte) (s : State) : (s.setExcCode b).dFunc = s.dFunc := rfl
@[simp] theorem State.setExcCode_dAddr (b : Byte) (s : State) : (s.setExcCode b).dAddr = s.dAddr := rfl
@[simp] theorem State.setExcCode_dCount (b : Byte) (s : State) : (s.setExcCode b).dCount = s.dCount := rfl
@[simp] theorem State.setExcCode_dBase (b : Byte) (s : State) : (s.setExcCode b).dBase = s.dBase := rfl
@[simp] theorem State.setExcCode_descLoaded (b : Byte) (s : State) : (s.setExcCode b).descLoaded = s.descLoaded := rfl
@[simp] theorem State.setExcCode_txBuf (b : Byte) (s : State) : (s.setExcCode b).txBuf = s.txBuf := rfl
@[simp] theorem State.setExcCode_txLen (b : Byte) (s : State) : (s.setExcCode b).txLen = s.txLen := rfl
@[simp] theorem State.setExcCode_rxBuf (b : Byte) (s : State) : (s.setExcCode b).rxBuf = s.rxBuf := rfl
@[simp] theorem State.setExcCode_rxLen (b : Byte) (s : State) : (s.setExcCode b).rxLen = s.rxLen := rfl
@[simp] theorem State.setExcCode_bufMem (b : Byte) (s : State) : (s.setExcCode b).bufMem = s.bufMem := rfl
@[simp] theorem State.setExcCode_cfg (b : Byte) (s : State) : (s.setExcCode b).cfg = s.cfg := rfl
@[simp] theorem State.setExcCode_hostActions (b : Byte) (s : State) : (s.setExcCode b).hostActions = s.hostActions := rfl
@[simp] theorem State.setExcCode_result (b : Byte) (s : State) : (s.setExcCode b).result = s.result :=
  field_withField_disjoint _ _ _ _ _ (by decide)
@[simp] theorem State.setExcCode_expectRsp (b : Byte) (s : State) : (s.setExcCode b).expectRsp = s.expectRsp :=
  field_withField_disjoint _ _ _ _ _ (by decide)
@[simp] theorem State.setExcCode_excClassField (b : Byte) (s : State) : (s.setExcCode b).excClassField = s.excClassField :=
  field_withField_disjoint _ _ _ _ _ (by decide)
@[simp] theorem State.setExcCode_rxOvf (b : Byte) (s : State) : (s.setExcCode b).rxOvf = s.rxOvf :=
  field_withField_disjoint _ _ _ _ _ (by decide)
@[simp] theorem State.setExcCode_faultFlag (b : Byte) (s : State) : (s.setExcCode b).faultFlag = s.faultFlag :=
  field_withField_disjoint _ _ _ _ _ (by decide)
@[simp] theorem State.setExcCode_faultCause (b : Byte) (s : State) : (s.setExcCode b).faultCause = s.faultCause :=
  field_withField_disjoint _ _ _ _ _ (by decide)
@[simp] theorem State.setExcCode_excCode (b : Byte) (s : State) : (s.setExcCode b).excCode = b :=
  field_withField_same _ _ _ (by decide)
@[simp] theorem State.setExcCode_faulted (b : Byte) (s : State) : (s.setExcCode b).faulted = s.faulted := by
  simp [State.faulted]

end Sys2Proof.Machine
end

