-- ==== Sys2Proof/Laws/Memory.lean ====
section
/-! SUPPORT. Laws of the word-buffer memory (spec/20_memory.md R42 to R44): a read after a write, and the canonical form
kept by every memory operation. -/
namespace Sys2Proof.Machine

/-- A word reads as written. -/
@[simp] theorem memGet_memSet_same (m : Memory) (a : Nat) (v : Word) : memGet (memSet m a v) a = some v := by
  induction m with
  | nil => simp [memSet, memGet]
  | cons p rest ih =>
    obtain ⟨b, w⟩ := p
    rcases lt_trichotomy a b with h | h | h
    · simp [memSet, memGet, h]
    · simp [memSet, memGet, h]
    · simp [memSet, memGet, show ¬ a < b by omega, show ¬ a = b by omega, ih]

/-- A write leaves every other word alone. -/
theorem memGet_memSet_other (m : Memory) {a c : Nat} (v : Word) (h : c ≠ a) : memGet (memSet m a v) c = memGet m c := by
  induction m with
  | nil => simp [memSet, memGet, h]
  | cons p rest ih =>
    obtain ⟨b, w⟩ := p
    rcases lt_trichotomy a b with hab | hab | hab
    · simp [memSet, memGet, hab, h]
    · subst hab
      simp [memSet, memGet, h]
    · by_cases hc : c = b
      · simp [memSet, memGet, show ¬ a < b by omega, show ¬ a = b by omega, hc]
      · simp [memSet, memGet, show ¬ a < b by omega, show ¬ a = b by omega, hc, ih]

/-- The canonical form of a list with a head: the head is in range and below everything after it. -/
theorem Memory.wf_cons (n a : Nat) (v : Word) (m : Memory) :
    Memory.wf n ((a, v) :: m) = true ↔ a < n ∧ Memory.wf n m = true ∧ ∀ b w m', m = (b, w) :: m' → a < b := by
  cases m with
  | nil => simp [Memory.wf]
  | cons p rest =>
    obtain ⟨b, w⟩ := p
    simp only [Memory.wf, Bool.and_eq_true, decide_eq_true_eq, List.cons.injEq, Prod.mk.injEq]
    constructor
    · rintro ⟨hab, hw⟩
      refine ⟨?_, hw, ?_⟩
      · cases rest with
        | nil => simp [Memory.wf] at hw; omega
        | cons q r =>
          have : ∀ (m : Memory) (b : Nat) (w : Word), Memory.wf n ((b, w) :: m) = true → b < n := by
            intro m
            induction m with
            | nil => intro b w h; simpa [Memory.wf] using h
            | cons q' r' ih =>
              intro b w h
              simp only [Memory.wf, Bool.and_eq_true, decide_eq_true_eq] at h
              have := ih _ _ h.2
              omega
          have := this _ _ _ hw
          omega
      · rintro b' w' m' ⟨⟨rfl, rfl⟩, rfl⟩
        exact hab
    · rintro ⟨-, hw, h⟩
      exact ⟨h b w rest ⟨⟨rfl, rfl⟩, rfl⟩, hw⟩

/-- The head of a memory after a write is the written address or the old head. -/
theorem memSet_head (m : Memory) (a : Nat) (v : Word) {b : Nat} {w : Word} {m' : Memory}
    (h : memSet m a v = (b, w) :: m') : b = a ∨ ∃ w' r, m = (b, w') :: r := by
  cases m with
  | nil => simp [memSet] at h; exact .inl h.1.1.symm
  | cons p rest =>
    obtain ⟨c, x⟩ := p
    simp only [memSet] at h
    split at h
    · simp at h; exact .inl h.1.1.symm
    · split at h
      · simp at h; exact .inl h.1.1.symm
      · simp at h; exact .inr ⟨x, rest, by rw [h.1.1]⟩

/-- A write in range keeps the canonical form. -/
theorem memSet_wf {n : Nat} {m : Memory} {a : Nat} (v : Word) (hm : Memory.wf n m = true) (ha : a < n) :
    Memory.wf n (memSet m a v) = true := by
  induction m with
  | nil => simpa [memSet, Memory.wf] using ha
  | cons p rest ih =>
    obtain ⟨b, w⟩ := p
    have hc := (Memory.wf_cons n b w rest).1 hm
    rcases lt_trichotomy a b with hab | hab | hab
    · simp only [memSet, if_pos hab, Memory.wf_cons n a v]
      refine ⟨ha, hm, ?_⟩
      rintro b' w' m' ⟨⟩
      exact hab
    · subst hab
      simp only [memSet, lt_irrefl, if_false, if_true, Memory.wf_cons n a v]
      exact ⟨ha, hc.2⟩
    · simp only [memSet, if_neg (show ¬ a < b by omega), if_neg (show ¬ a = b by omega), Memory.wf_cons n b w]
      refine ⟨hc.1, ih hc.2.1, ?_⟩
      intro b' w' m' h
      rcases memSet_head _ _ _ h with rfl | ⟨w'', r, rfl⟩
      · exact hab
      · exact hc.2.2 _ _ _ rfl

/-- What a successful `MemRead` says. -/
theorem memRead_ok {s : State} {a : Nat} {w : Word} :
    memRead s a = .ok w ↔ a < s.cfg.bufWords ∧ memGet s.bufMem a = some w := by
  unfold memRead
  split
  · simp; omega
  · cases h : memGet s.bufMem a
    · simp
    · simp
      omega

/-- Everything `readWords` can answer with words: each word is the written word of its address. -/
theorem readWords_ok {s : State} {n : Nat} : ∀ {a : Nat} {ws : List Word},
    readWords s a n = .ok ws ↔ ws.length = n ∧ ∀ k, k < n → memRead s (a + k) = .ok (ws.getD k 0) := by
  induction n with
  | zero =>
    intro a ws
    simp only [readWords, Except.ok.injEq, List.length_eq_zero_iff]
    exact ⟨fun h => ⟨h.symm, by simp⟩, fun h => h.1.symm⟩
  | succ n ih =>
    intro a ws
    simp only [readWords]
    cases hr : memRead s a with
    | error c =>
      simp only [reduceCtorEq, false_iff]
      rintro ⟨-, h⟩
      have := h 0 (by omega)
      simp [hr] at this
    | ok w =>
      cases hs : readWords s (a + 1) n with
      | error c =>
        simp only [reduceCtorEq, false_iff]
        rintro ⟨hl, h⟩
        have : readWords s (a + 1) n = .ok ws.tail := ih.2 ⟨by simp [hl], fun k hk => by
          have := h (k + 1) (by omega)
          rw [show a + 1 + k = a + (k + 1) by omega, this]
          cases ws <;> simp⟩
        simp [hs] at this
      | ok rest =>
        have h1 := ih.1 hs
        simp only [Except.ok.injEq]
        constructor
        · rintro rfl
          refine ⟨by simp [h1.1], fun k hk => ?_⟩
          cases k with
          | zero => simpa using hr
          | succ k =>
            have := h1.2 k (by omega)
            rw [show a + (k + 1) = a + 1 + k by omega, this]
            simp
        · rintro ⟨hl, h⟩
          cases ws with
          | nil => simp at hl
          | cons w' ws' =>
            have h0 := h 0 (by omega)
            simp [hr] at h0
            have : readWords s (a + 1) n = .ok ws' := ih.2 ⟨by simpa using hl, fun k hk => by
              have := h (k + 1) (by omega)
              rw [show a + 1 + k = a + (k + 1) by omega, this]
              simp⟩
            simp [hs] at this
            simp [h0, this]

/-- Words that are in range and written can all be read. -/
theorem readWords_total {s : State} {a n : Nat} (hr : a + n ≤ s.cfg.bufWords)
    (hw : ∀ k, k < n → (memGet s.bufMem (a + k)).isSome = true) : ∃ ws, readWords s a n = .ok ws := by
  refine ⟨(List.range n).map fun k => (memGet s.bufMem (a + k)).getD 0, readWords_ok.2 ⟨by simp, fun k hk => ?_⟩⟩
  obtain ⟨w, h⟩ := Option.isSome_iff_exists.1 (hw k hk)
  exact memRead_ok.2 ⟨by omega, by simp [hk, h]⟩

/-- In range, `readWords` fails only on an unwritten word. -/
theorem readWords_error {s : State} {n : Nat} : ∀ {a : Nat} {c : FaultCause}, a + n ≤ s.cfg.bufWords →
    readWords s a n = .error c → c = .uninitBuf ∧ ∃ k, k < n ∧ memGet s.bufMem (a + k) = none := by
  induction n with
  | zero => intro a c _ h; simp [readWords] at h
  | succ n ih =>
    intro a c hr h
    simp only [readWords] at h
    cases hm : memRead s a with
    | error c' =>
      simp only [hm, Except.error.injEq] at h
      subst h
      unfold memRead at hm
      rw [if_neg (by omega)] at hm
      cases hg : memGet s.bufMem a with
      | none =>
        simp only [hg, Except.error.injEq] at hm
        exact ⟨hm.symm, 0, by omega, by simpa using hg⟩
      | some w => simp [hg] at hm
    | ok w =>
      simp only [hm] at h
      cases hs : readWords s (a + 1) n with
      | error c' =>
        simp only [hs, Except.error.injEq] at h
        subst h
        obtain ⟨hc, k, hk, hn⟩ := ih (by omega) hs
        exact ⟨hc, k + 1, by omega, by rw [← hn]; congr 1; omega⟩
      | ok ws => simp [hs] at h

/-- Words written one after another in a memory. -/
def memSetAll (m : Memory) (a : Nat) : List Word → Memory
  | [] => m
  | v :: vs => memSetAll (memSet m a v) (a + 1) vs

/-- Everything `writeWords` does when its words are in range: only `BUFMEM` changes. -/
theorem writeWords_eq (vs : List Word) : ∀ (s : State) (a : Nat), a + vs.length ≤ s.cfg.bufWords →
    writeWords s a vs = .ok { s with bufMem := memSetAll s.bufMem a vs } := by
  induction vs with
  | nil => intro s a _; simp [writeWords, memSetAll]
  | cons v vs ih =>
    intro s a h
    simp only [List.length_cons] at h
    simp only [writeWords, memWrite, if_neg (show ¬ s.cfg.bufWords ≤ a by omega), memSetAll]
    rw [ih]
    simp only
    omega

/-- A word that `memSetAll` writes reads as written; every other word is as before. -/
theorem memGet_memSetAll (vs : List Word) : ∀ (m : Memory) (a c : Nat),
    memGet (memSetAll m a vs) c = if a ≤ c ∧ c < a + vs.length then some (vs.getD (c - a) 0) else memGet m c := by
  induction vs with
  | nil =>
    intro m a c
    rw [memSetAll, if_neg (by simp)]
  | cons v vs ih =>
    intro m a c
    rw [memSetAll, ih]
    by_cases h1 : a + 1 ≤ c ∧ c < a + 1 + vs.length
    · rw [if_pos h1, if_pos (by rw [List.length_cons]; omega), show c - a = c - (a + 1) + 1 by omega]
      simp
    · rw [if_neg h1]
      by_cases h2 : c = a
      · subst h2
        simp
      · rw [memGet_memSet_other _ _ h2, if_neg (by rw [List.length_cons]; omega)]

/-- Words written in range keep the canonical form. -/
theorem memSetAll_wf {n : Nat} (vs : List Word) : ∀ {m : Memory} {a : Nat}, Memory.wf n m = true → a + vs.length ≤ n →
    Memory.wf n (memSetAll m a vs) = true := by
  induction vs with
  | nil => intro m a h _; simpa [memSetAll] using h
  | cons v vs ih =>
    intro m a h hr
    simp only [List.length_cons] at hr
    exact ih (memSet_wf v h (by omega)) (by omega)

/-- The memory at reset is in canonical form, whatever the parameters. -/
theorem reset_bufMem_wf (n : Nat) : Memory.wf n State.reset.bufMem = true := rfl

end Sys2Proof.Machine
end

