-- ==== Sys2Proof/Laws/Ops.lean ====
section
/-! SUPPORT. Laws of the shared operations: what fault entry writes (spec/60_exceptions.md R152), everything one command can
answer (R154), and how the frame buffers read. -/
namespace Sys2Proof.Machine

/-! ### `enterFault` -/

@[simp] theorem enterFault_crc (c : FaultCause) (s : State) : (enterFault c s).crc = s.crc := rfl
@[simp] theorem enterFault_dSlave (c : FaultCause) (s : State) : (enterFault c s).dSlave = s.dSlave := rfl
@[simp] theorem enterFault_dFunc (c : FaultCause) (s : State) : (enterFault c s).dFunc = s.dFunc := rfl
@[simp] theorem enterFault_dAddr (c : FaultCause) (s : State) : (enterFault c s).dAddr = s.dAddr := rfl
@[simp] theorem enterFault_dCount (c : FaultCause) (s : State) : (enterFault c s).dCount = s.dCount := rfl
@[simp] theorem enterFault_dBase (c : FaultCause) (s : State) : (enterFault c s).dBase = s.dBase := rfl
@[simp] theorem enterFault_descLoaded (c : FaultCause) (s : State) : (enterFault c s).descLoaded = s.descLoaded := rfl
@[simp] theorem enterFault_txBuf (c : FaultCause) (s : State) : (enterFault c s).txBuf = s.txBuf := rfl
@[simp] theorem enterFault_txLen (c : FaultCause) (s : State) : (enterFault c s).txLen = s.txLen := rfl
@[simp] theorem enterFault_rxBuf (c : FaultCause) (s : State) : (enterFault c s).rxBuf = s.rxBuf := rfl
@[simp] theorem enterFault_rxLen (c : FaultCause) (s : State) : (enterFault c s).rxLen = s.rxLen := rfl
@[simp] theorem enterFault_bufMem (c : FaultCause) (s : State) : (enterFault c s).bufMem = s.bufMem := rfl
@[simp] theorem enterFault_cfg (c : FaultCause) (s : State) : (enterFault c s).cfg = s.cfg := rfl
@[simp] theorem enterFault_hostActions (c : FaultCause) (s : State) : (enterFault c s).hostActions = s.hostActions := rfl
@[simp] theorem enterFault_result (c : FaultCause) (s : State) : (enterFault c s).result = s.result := by
  simp [enterFault]
@[simp] theorem enterFault_expectRsp (c : FaultCause) (s : State) : (enterFault c s).expectRsp = s.expectRsp := by
  simp [enterFault]
@[simp] theorem enterFault_excClassField (c : FaultCause) (s : State) : (enterFault c s).excClassField = s.excClassField := by
  simp [enterFault]
@[simp] theorem enterFault_rxOvf (c : FaultCause) (s : State) : (enterFault c s).rxOvf = s.rxOvf := by
  simp [enterFault]
@[simp] theorem enterFault_faultFlag (c : FaultCause) (s : State) : (enterFault c s).faultFlag = 1 := by
  simp [enterFault]
@[simp] theorem enterFault_faultCause (c : FaultCause) (s : State) : (enterFault c s).faultCause = causeCode c := by
  simp [enterFault]
@[simp] theorem enterFault_excCode (c : FaultCause) (s : State) : (enterFault c s).excCode = s.excCode := by
  simp [enterFault]
@[simp] theorem enterFault_faulted (c : FaultCause) (s : State) : (enterFault c s).faulted = true := by
  simp [enterFault]

/-! ### Faults and commands -/

/-- A raised fault that leaves a next state is the sticky fault state of its cause, and the cause has a code. -/
theorem raiseFault_next {c : FaultCause} {s t : State} (h : raiseFault c s = .next t) :
    c ≠ .uninitBuf ∧ t = enterFault c s := by
  cases c <;> simp [raiseFault] at h <;> exact ⟨by decide, h.symm⟩

/-- A faulted block writes nothing (R154). -/
@[simp] theorem runCommand_faulted {s : State} (body : Except FaultCause State) (h : s.faulted = true) :
    runCommand s body = .next s := by
  simp [runCommand, h]

/-- A command that takes its effect. -/
@[simp] theorem runCommand_ok {s : State} (t : State) (h : s.faulted = false) : runCommand s (.ok t) = .next t := by
  simp [runCommand, h]

/-- A command that faults. -/
@[simp] theorem runCommand_error {s : State} (c : FaultCause) (h : s.faulted = false) :
    runCommand s (.error c) = raiseFault c s := by
  simp [runCommand, h]

/-- Everything a command can answer with a next state: the gate held it, its body gave the state, or its body raised a
fault. -/
theorem runCommand_next {s t : State} {body : Except FaultCause State} (h : runCommand s body = .next t) :
    (s.faulted = true ∧ t = s) ∨ (s.faulted = false ∧ body = .ok t) ∨
      (s.faulted = false ∧ ∃ c, c ≠ .uninitBuf ∧ body = .error c ∧ t = enterFault c s) := by
  unfold runCommand at h
  split at h
  · rename_i hf
    exact .inl ⟨hf, by simpa using h.symm⟩
  · rename_i hf
    simp only [Bool.not_eq_true] at hf
    cases body with
    | ok s' => exact .inr (.inl ⟨hf, by simpa using h⟩)
    | error c =>
      obtain ⟨hc, ht⟩ := raiseFault_next h
      exact .inr (.inr ⟨hf, c, hc, rfl, ht⟩)

/-- A command that cannot fault: the gate held it or it took its effect. -/
theorem runCommand_ok_next {s t u : State} (h : runCommand s (.ok u) = .next t) :
    (s.faulted = true ∧ t = s) ∨ (s.faulted = false ∧ t = u) := by
  rcases runCommand_next h with h1 | ⟨hf, hb⟩ | ⟨_, _, _, hb, _⟩
  · exact .inl h1
  · exact .inr ⟨hf, by simpa using hb.symm⟩
  · simp at hb

/-! ### The frame buffers -/

/-- A byte of an overlaid buffer. -/
@[simp] theorem overlay_getElem (fr : List Byte) (buf : Vector Byte 128) (i : Nat) (h : i < 128) :
    (overlay fr buf)[i] = fr.getD i buf[i] := by
  simp [overlay]

/-- The bytes below the length of an overlaid frame are the frame. -/
theorem overlay_take (fr : List Byte) (buf : Vector Byte 128) (h : fr.length ≤ 128) :
    (overlay fr buf).toList.take fr.length = fr := by
  apply List.ext_getElem
  · simp [h]
  · intro i h1 h2
    simp only [List.getElem_take, Vector.getElem_toList, overlay_getElem]
    simp [h2]

/-- How many bytes have been received. -/
theorem rxBytes_length (s : State) : s.rxBytes.length = min s.rxLen.toNat 128 := by
  simp [State.rxBytes]

/-- How many bytes the last frame built has. -/
theorem txBytes_length (s : State) : s.txBytes.length = min s.txLen.toNat 128 := by
  simp [State.txBytes]

end Sys2Proof.Machine
end

