-- ==== Sys2Proof/Laws/Deserializer.lean ====
section
/-! SUPPORT. Laws of VALIDATE (spec/43_deserializer.md R125): what a verdict writes, and everything its body can answer. -/
namespace Sys2Proof.Machine

/-! ### `recordVerdict` -/

@[simp] theorem recordVerdict_crc (v : Verdict) (r : List Byte) (s : State) : (recordVerdict v r s).crc = s.crc := by
  unfold recordVerdict; split <;> rfl
@[simp] theorem recordVerdict_dSlave (v : Verdict) (r : List Byte) (s : State) : (recordVerdict v r s).dSlave = s.dSlave := by
  unfold recordVerdict; split <;> rfl
@[simp] theorem recordVerdict_dFunc (v : Verdict) (r : List Byte) (s : State) : (recordVerdict v r s).dFunc = s.dFunc := by
  unfold recordVerdict; split <;> rfl
@[simp] theorem recordVerdict_dAddr (v : Verdict) (r : List Byte) (s : State) : (recordVerdict v r s).dAddr = s.dAddr := by
  unfold recordVerdict; split <;> rfl
@[simp] theorem recordVerdict_dCount (v : Verdict) (r : List Byte) (s : State) : (recordVerdict v r s).dCount = s.dCount := by
  unfold recordVerdict; split <;> rfl
@[simp] theorem recordVerdict_dBase (v : Verdict) (r : List Byte) (s : State) : (recordVerdict v r s).dBase = s.dBase := by
  unfold recordVerdict; split <;> rfl
@[simp] theorem recordVerdict_descLoaded (v : Verdict) (r : List Byte) (s : State) : (recordVerdict v r s).descLoaded = s.descLoaded := by
  unfold recordVerdict; split <;> rfl
@[simp] theorem recordVerdict_txBuf (v : Verdict) (r : List Byte) (s : State) : (recordVerdict v r s).txBuf = s.txBuf := by
  unfold recordVerdict; split <;> rfl
@[simp] theorem recordVerdict_txLen (v : Verdict) (r : List Byte) (s : State) : (recordVerdict v r s).txLen = s.txLen := by
  unfold recordVerdict; split <;> rfl
@[simp] theorem recordVerdict_rxBuf (v : Verdict) (r : List Byte) (s : State) : (recordVerdict v r s).rxBuf = s.rxBuf := by
  unfold recordVerdict; split <;> rfl
@[simp] theorem recordVerdict_rxLen (v : Verdict) (r : List Byte) (s : State) : (recordVerdict v r s).rxLen = s.rxLen := by
  unfold recordVerdict; split <;> rfl
@[simp] theorem recordVerdict_bufMem (v : Verdict) (r : List Byte) (s : State) : (recordVerdict v r s).bufMem = s.bufMem := by
  unfold recordVerdict; split <;> rfl
@[simp] theorem recordVerdict_cfg (v : Verdict) (r : List Byte) (s : State) : (recordVerdict v r s).cfg = s.cfg := by
  unfold recordVerdict; split <;> rfl
@[simp] theorem recordVerdict_hostActions (v : Verdict) (r : List Byte) (s : State) : (recordVerdict v r s).hostActions = s.hostActions := by
  unfold recordVerdict; split <;> rfl
@[simp] theorem recordVerdict_result (v : Verdict) (r : List Byte) (s : State) : (recordVerdict v r s).result = verdictCode v := by
  unfold recordVerdict; split <;> simp [*]
@[simp] theorem recordVerdict_expectRsp (v : Verdict) (r : List Byte) (s : State) : (recordVerdict v r s).expectRsp = s.expectRsp := by
  unfold recordVerdict; split <;> simp [*]
@[simp] theorem recordVerdict_excClassField (v : Verdict) (r : List Byte) (s : State) : (recordVerdict v r s).excClassField = if v = .exception then excClass (r.getD 2 0) else 0 := by
  unfold recordVerdict; split <;> simp [*]
@[simp] theorem recordVerdict_rxOvf (v : Verdict) (r : List Byte) (s : State) : (recordVerdict v r s).rxOvf = s.rxOvf := by
  unfold recordVerdict; split <;> simp [*]
@[simp] theorem recordVerdict_faultFlag (v : Verdict) (r : List Byte) (s : State) : (recordVerdict v r s).faultFlag = s.faultFlag := by
  unfold recordVerdict; split <;> simp [*]
@[simp] theorem recordVerdict_faultCause (v : Verdict) (r : List Byte) (s : State) : (recordVerdict v r s).faultCause = s.faultCause := by
  unfold recordVerdict; split <;> simp [*]
@[simp] theorem recordVerdict_excCode (v : Verdict) (r : List Byte) (s : State) : (recordVerdict v r s).excCode = if v = .exception then r.getD 2 0 else 0 := by
  unfold recordVerdict; split <;> simp [*]
@[simp] theorem recordVerdict_faulted (v : Verdict) (r : List Byte) (s : State) : (recordVerdict v r s).faulted = s.faulted := by
  unfold recordVerdict; split <;> simp [*]

/-- What passing the checks of VALIDATE says (R126). -/
theorem validateCheck_ok {s : State} :
    validateCheck s = .ok () ↔ s.descLoaded = true ∧ validDesc s.dSlave s.dFunc s.dCount = true ∧ s.dSlave ≠ 0#8 ∧
      (isRead s.dFunc = true → bufferInRange s s.dFunc s.dCount = true) := by
  unfold validateCheck
  by_cases h0 : s.dSlave = 0#8
  · rw [h0]
    cases s.descLoaded <;> cases validDesc 0 s.dFunc s.dCount <;> simp
  · have h1 : (s.dSlave == 0) = false := by simpa using h0
    rw [h1]
    cases s.descLoaded <;> cases validDesc s.dSlave s.dFunc s.dCount <;> cases isRead s.dFunc <;>
      cases bufferInRange s s.dFunc s.dCount <;> simp [h0]

/-- The causes VALIDATE's checks raise have a code. -/
theorem validateCheck_error {s : State} {c : FaultCause} (h : validateCheck s = .error c) : c ≠ .uninitBuf := by
  unfold validateCheck at h
  split at h
  · simp at h; subst h; decide
  · split at h
    · simp at h; subst h; decide
    · split at h
      · simp at h; subst h; decide
      · split at h
        · simp at h; subst h; decide
        · simp at h

/-- How many words a successful read writes (R87). -/
@[simp] theorem responseWords_length (layout : CoilLayout) (f : Byte) (r : List Byte) (n : Nat) (h : isRead f = true) :
    (responseWords layout f r n).length = bufferWords layout f n := by
  unfold responseWords bufferWords isPointFunction
  by_cases hp : isReadPoints f = true
  · cases layout <;> simp [hp, unpackCoils]
  · simp only [Bool.not_eq_true] at hp
    have hc : (f == fcForceMultipleCoils) = false := by
      simp only [isRead, isReadRegisters, hp, Bool.false_or, Bool.or_eq_true, beq_iff_eq] at h
      rcases h with rfl | rfl <;> decide
    simp [hp, hc, unpackWords]

/-- Everything the body of VALIDATE gives once its checks pass: the verdict's status fields and, on success of a read, the
data words in `BUFMEM`; nothing else. -/
theorem validateBody_of_check {s : State} (r : List Byte) (h : validateCheck s = .ok ()) :
    validateBody r s = .ok
      (if verdict r s = .success ∧ isRead s.dFunc = true then
        { recordVerdict (verdict r s) r s with
          bufMem := memSetAll s.bufMem s.dBase.toNat (responseWords s.cfg.coilLayout s.dFunc r s.dCount.toNat) }
      else recordVerdict (verdict r s) r s) := by
  unfold validateBody
  simp only [h]
  split
  · rename_i hv
    rw [writeWords_eq]
    · simp
    · have := (validateCheck_ok.1 h).2.2.2 hv.2
      simpa [responseWords_length _ _ _ _ hv.2, bufferInRange] using this
  · rfl

/-- VALIDATE never stops the machine: it always answers a next state. -/
theorem judgeFrame_total (r : List Byte) (s : State) : ∃ t, judgeFrame r s = .next t := by
  unfold judgeFrame
  cases hf : s.faulted with
  | true => exact ⟨s, by simp [hf]⟩
  | false =>
    cases hc : validateCheck s with
    | ok u => exact ⟨_, by rw [validateBody_of_check r hc, runCommand_ok _ hf]⟩
    | error c =>
      have : validateBody r s = .error c := by simp [validateBody, hc]
      rw [this, runCommand_error _ hf]
      have := validateCheck_error hc
      cases c <;> simp [raiseFault] at this ⊢

end Sys2Proof.Machine
end

