-- ==== Sys2Proof/Laws/Operands.lean ====
section
/-! SUPPORT. Laws of frames and operands: the function classes, the size bounds of a valid descriptor
(spec/40_descriptor.md R85; spec/30_encoding.md R69), and the bits and bytes of packed and unpacked data
(spec/42_serializer.md R112, R113; spec/43_deserializer.md R138, R139). -/
namespace Sys2Proof.Machine

/-! ### Function classes (R13) -/

theorem isWrite_iff (f : Byte) : isWrite f = true ↔ f = 15#8 ∨ f = 16#8 := by
  simp [isWrite, fcForceMultipleCoils, fcPresetMultipleRegisters]

theorem isReadPoints_iff (f : Byte) : isReadPoints f = true ↔ f = 1#8 ∨ f = 2#8 := by
  simp [isReadPoints, fcReadCoilStatus, fcReadInputStatus]

theorem isRead_iff (f : Byte) : isRead f = true ↔ f = 1#8 ∨ f = 2#8 ∨ f = 3#8 ∨ f = 4#8 := by
  simp [isRead, isReadPoints, isReadRegisters, fcReadCoilStatus, fcReadInputStatus, fcReadHoldingRegisters,
    fcReadInputRegisters, or_assoc]

theorem isSupported_iff (f : Byte) :
    isSupported f = true ↔ f = 1#8 ∨ f = 2#8 ∨ f = 3#8 ∨ f = 4#8 ∨ f = 15#8 ∨ f = 16#8 := by
  rw [isSupported, Bool.or_eq_true, isRead_iff, isWrite_iff]
  simp only [or_assoc]

/-- The four checks of a valid descriptor (R81). -/
theorem validDesc_parts {slave f : Byte} {count : Word} (h : validDesc slave f count = true) :
    slave.toNat ≤ maxSlave ∧ isSupported f = true ∧ (slave = 0#8 → isWrite f = true) ∧ minCount ≤ count.toNat ∧
      count.toNat ≤ maxCount f := by
  simp only [validDesc, slaveLegal, broadcastLegal, countLegal, Bool.and_eq_true, decide_eq_true_eq, Bool.or_eq_true,
    bne_iff_ne, ne_eq] at h
  obtain ⟨⟨⟨h1, h2⟩, h3⟩, h4, h5⟩ := h
  exact ⟨h1, h2, fun h0 => h3.resolve_left (fun hn => hn h0), h4, h5⟩

/-- A valid descriptor's count and data length (R69, R85). -/
theorem validDesc_bounds {slave f : Byte} {count : Word} (h : validDesc slave f count = true) :
    1 ≤ count.toNat ∧ dataBytes f count.toNat ≤ 122 ∧ (isWrite f = true → dataBytes f count.toNat ≤ 119) := by
  obtain ⟨-, hs, -, h1, h2⟩ := validDesc_parts h
  refine ⟨h1, ?_⟩
  rcases (isSupported_iff f).1 hs with rfl | rfl | rfl | rfl | rfl | rfl
  · have e : maxCount 1#8 = 61 := rfl
    have d : dataBytes 1#8 count.toNat = (count.toNat + 7) / 8 := rfl
    have w : isWrite 1#8 = false := rfl
    rw [d, w]
    omega
  · have e : maxCount 2#8 = 61 := rfl
    have d : dataBytes 2#8 count.toNat = (count.toNat + 7) / 8 := rfl
    have w : isWrite 2#8 = false := rfl
    rw [d, w]
    omega
  · have e : maxCount 3#8 = 61 := rfl
    have d : dataBytes 3#8 count.toNat = 2 * count.toNat := rfl
    have w : isWrite 3#8 = false := rfl
    rw [d, w]
    simp
    omega
  · have e : maxCount 4#8 = 61 := rfl
    have d : dataBytes 4#8 count.toNat = 2 * count.toNat := rfl
    have w : isWrite 4#8 = false := rfl
    rw [d, w]
    simp
    omega
  · have e : maxCount 15#8 = 952 := rfl
    have d : dataBytes 15#8 count.toNat = (count.toNat + 7) / 8 := rfl
    rw [d]
    omega
  · have e : maxCount 16#8 = 59 := rfl
    have d : dataBytes 16#8 count.toNat = 2 * count.toNat := rfl
    rw [d]
    omega

/-- The range check (R86). -/
theorem bufferInRange_iff (s : State) (f : Byte) (count : Word) :
    bufferInRange s f count = true ↔
      s.dBase.toNat + bufferWords s.cfg.coilLayout f count.toNat ≤ s.cfg.bufWords := by
  simp [bufferInRange]

/-! ### Bits gathered one by one -/

/-- Setting bit `i` for each `i < m` with `p i` sets exactly those bits. -/
theorem getLsbD_gather {w : Nat} (p : Nat → Bool) (m i : Nat) (hi : i < w) :
    ((List.range m).foldl (fun (acc : BitVec w) i => if p i then acc ||| (BitVec.ofNat w 1 <<< i) else acc) 0).getLsbD i =
      (decide (i < m) && p i) := by
  induction m with
  | zero => simp
  | succ m ih =>
    rw [List.range_succ, List.foldl_append, List.foldl_cons, List.foldl_nil]
    by_cases hp : p m = true
    · rw [if_pos hp, BitVec.getLsbD_or, ih, BitVec.getLsbD_shiftLeft, BitVec.getLsbD_ofNat]
      by_cases him : i = m
      · subst him
        simp [hp, hi, show 0 < w by omega]
      · by_cases hlt : i < m
        · simp [hlt, show i < m + 1 by omega]
        · have h1 : (1 : Nat).testBit (i - m) = false := by
            obtain ⟨j, hj⟩ := Nat.exists_eq_add_of_lt (show m < i by omega)
            rw [show i - m = j + 1 by omega, Nat.testBit_succ]
            simp
          simp [hlt, show ¬ i < m + 1 by omega, h1]
    · rw [if_neg hp, ih]
      by_cases him : i = m
      · subst him
        simp [hp]
      · simp [show (i < m + 1) = (i < m) by simp; omega]

/-- Bit `i` of data byte `j` is point `8j + i`, 0 past the last point (R112). -/
theorem getLsbD_coilByte (point : Nat → Bool) (n j i : Nat) (hi : i < 8) :
    (coilByte point n j).getLsbD i = (decide (8 * j + i < n) && point (8 * j + i)) := by
  have h := getLsbD_gather (w := 8) (fun i => decide (8 * j + i < n) && point (8 * j + i)) 8 i hi
  simp only [hi, decide_true, Bool.true_and] at h
  exact h

/-- Bit `i` of unpacked word `k` is point `16k + i`, 0 past the last point (R138). -/
theorem getLsbD_packedWord (point : Nat → Bool) (n k i : Nat) (hi : i < 16) :
    (packedWord point n k).getLsbD i = (decide (16 * k + i < n) && point (16 * k + i)) := by
  have h := getLsbD_gather (w := 16) (fun i => decide (16 * k + i < n) && point (16 * k + i)) 16 i hi
  simp only [hi, decide_true, Bool.true_and] at h
  exact h

/-! ### Packed data -/

@[simp] theorem packCoils_length (layout : CoilLayout) (ws : List Word) (n : Nat) :
    (packCoils layout ws n).length = (n + 7) / 8 := by
  simp [packCoils]

/-- Point `k` in the packed data (R112). -/
theorem packCoils_bit (layout : CoilLayout) (ws : List Word) (n k : Nat) (hk : k < 8 * ((n + 7) / 8)) :
    ((packCoils layout ws n).getD (k / 8) 0).getLsbD (k % 8) = (decide (k < n) && wordsPoint layout ws k) := by
  have hj : k / 8 < (n + 7) / 8 := by omega
  have hg : (packCoils layout ws n).getD (k / 8) 0 = coilByte (wordsPoint layout ws) n (k / 8) := by
    simp [packCoils, hj]
  rw [hg, getLsbD_coilByte _ _ _ _ (by omega), show 8 * (k / 8) + k % 8 = k by omega]

@[simp] theorem packWords_length (ws : List Word) : (packWords ws).length = 2 * ws.length := by
  induction ws with
  | nil => rfl
  | cons w ws ih =>
    simp only [packWords, List.flatMap_cons, List.length_append, List.length_cons] at ih ⊢
    simp only [ih, List.length_nil]
    omega

/-- Word `k` in the packed data, high byte first (R113). -/
theorem packWords_word (ws : List Word) : ∀ k, k < ws.length →
    (packWords ws).getD (2 * k) 0 = hiByte (ws.getD k 0) ∧ (packWords ws).getD (2 * k + 1) 0 = loByte (ws.getD k 0) := by
  induction ws with
  | nil => simp
  | cons w ws ih =>
    intro k hk
    have hcons : packWords (w :: ws) = hiByte w :: loByte w :: packWords ws := rfl
    rw [hcons]
    cases k with
    | zero => simp
    | succ k =>
      have := ih k (by simpa using hk)
      rw [show 2 * (k + 1) = 2 * k + 1 + 1 by omega]
      simpa using this

/-- The data of a write request has the length `N` (R69). -/
theorem requestData_length {layout : CoilLayout} {f : Byte} {n : Nat} {ws : List Word} (hf : isWrite f = true)
    (hl : ws.length = bufferWords layout f n) : (requestData layout f n ws).length = dataBytes f n := by
  rcases (isWrite_iff f).1 hf with rfl | rfl
  · have e : requestData layout 15#8 n ws = packCoils layout ws n := rfl
    rw [e, packCoils_length]
    rfl
  · have e : requestData layout 16#8 n ws = packWords ws := rfl
    have w : bufferWords layout 16#8 n = n := rfl
    rw [e, packWords_length, hl, w]
    rfl

/-- Everything the payload of a request can be (R105). -/
theorem requestPayload_ok {s : State} {p : List Byte} (h : requestPayload s = .ok p) :
    (isWrite s.dFunc = false ∧ p = []) ∨
      (isWrite s.dFunc = true ∧ ∃ ws,
        readWords s s.dBase.toNat (bufferWords s.cfg.coilLayout s.dFunc s.dCount.toNat) = .ok ws ∧
        p = BitVec.ofNat 8 (dataBytes s.dFunc s.dCount.toNat) ::
          requestData s.cfg.coilLayout s.dFunc s.dCount.toNat ws) := by
  unfold requestPayload at h
  split at h
  · rename_i hw
    split at h
    · simp at h
    · rename_i ws hr
      exact .inr ⟨hw, ws, hr, by simpa using h.symm⟩
  · rename_i hw
    simp only [Bool.not_eq_true] at hw
    exact .inl ⟨hw, by simpa using h.symm⟩

/-! ### Unpacked data -/

/-- Entry `k` of an unpack of registers (R139). -/
theorem unpackWords_getD (r : List Byte) (n k : Nat) (hk : k < n) :
    (unpackWords r n).getD k 0 = joinBytes (r.getD (3 + 2 * k) 0) (r.getD (4 + 2 * k) 0) := by
  simp [unpackWords, hk]

/-- Entry `k` of an unpack of points, one a word (R138). -/
theorem unpackCoils_onePerWord_getD (r : List Byte) (n k : Nat) (hk : k < n) :
    (unpackCoils .onePerWord r n).getD k 0 = if responsePoint r k then 1#16 else 0#16 := by
  simp [unpackCoils, hk]

/-- Entry `k` of an unpack of points, sixteen a word (R138). -/
theorem unpackCoils_packed16_getD (r : List Byte) (n k : Nat) (hk : k < (n + 15) / 16) :
    (unpackCoils .packed16 r n).getD k 0 = packedWord (responsePoint r) n k := by
  simp [unpackCoils, hk]

end Sys2Proof.Machine
end

