-- ==== Sys2Proof/Laws/Serializer.lean ====
section
/-! SUPPORT. Laws of BUILD (spec/42_serializer.md R105): what it writes, and everything its body can answer. -/
namespace Sys2Proof.Machine

/-! ### `emitRequest` -/

@[simp] theorem emitRequest_crc (fr : List Byte) (slave : Byte) (s : State) : (emitRequest fr slave s).crc = s.crc := rfl
@[simp] theorem emitRequest_dSlave (fr : List Byte) (slave : Byte) (s : State) : (emitRequest fr slave s).dSlave = s.dSlave := rfl
@[simp] theorem emitRequest_dFunc (fr : List Byte) (slave : Byte) (s : State) : (emitRequest fr slave s).dFunc = s.dFunc := rfl
@[simp] theorem emitRequest_dAddr (fr : List Byte) (slave : Byte) (s : State) : (emitRequest fr slave s).dAddr = s.dAddr := rfl
@[simp] theorem emitRequest_dCount (fr : List Byte) (slave : Byte) (s : State) : (emitRequest fr slave s).dCount = s.dCount := rfl
@[simp] theorem emitRequest_dBase (fr : List Byte) (slave : Byte) (s : State) : (emitRequest fr slave s).dBase = s.dBase := rfl
@[simp] theorem emitRequest_descLoaded (fr : List Byte) (slave : Byte) (s : State) : (emitRequest fr slave s).descLoaded = s.descLoaded := rfl
@[simp] theorem emitRequest_txBuf (fr : List Byte) (slave : Byte) (s : State) : (emitRequest fr slave s).txBuf = overlay fr s.txBuf := rfl
@[simp] theorem emitRequest_txLen (fr : List Byte) (slave : Byte) (s : State) : (emitRequest fr slave s).txLen = BitVec.ofNat 8 fr.length := rfl
@[simp] theorem emitRequest_rxBuf (fr : List Byte) (slave : Byte) (s : State) : (emitRequest fr slave s).rxBuf = s.rxBuf := rfl
@[simp] theorem emitRequest_rxLen (fr : List Byte) (slave : Byte) (s : State) : (emitRequest fr slave s).rxLen = s.rxLen := rfl
@[simp] theorem emitRequest_bufMem (fr : List Byte) (slave : Byte) (s : State) : (emitRequest fr slave s).bufMem = s.bufMem := rfl
@[simp] theorem emitRequest_cfg (fr : List Byte) (slave : Byte) (s : State) : (emitRequest fr slave s).cfg = s.cfg := rfl
@[simp] theorem emitRequest_hostActions (fr : List Byte) (slave : Byte) (s : State) : (emitRequest fr slave s).hostActions = s.hostActions := rfl
@[simp] theorem emitRequest_result (fr : List Byte) (slave : Byte) (s : State) : (emitRequest fr slave s).result = verdictCode .none := by
  simp [emitRequest]
@[simp] theorem emitRequest_expectRsp (fr : List Byte) (slave : Byte) (s : State) : (emitRequest fr slave s).expectRsp = if slave == 0 then 0 else 1 := by
  simp [emitRequest]
@[simp] theorem emitRequest_excClassField (fr : List Byte) (slave : Byte) (s : State) : (emitRequest fr slave s).excClassField = 0 := by
  simp [emitRequest]
@[simp] theorem emitRequest_rxOvf (fr : List Byte) (slave : Byte) (s : State) : (emitRequest fr slave s).rxOvf = s.rxOvf := by
  simp only [emitRequest, State.setResult_rxOvf, State.setExpectRsp_rxOvf, State.setExcClass_rxOvf, State.setExcCode_rxOvf]
  simp only [State.rxOvf]
@[simp] theorem emitRequest_faultFlag (fr : List Byte) (slave : Byte) (s : State) : (emitRequest fr slave s).faultFlag = s.faultFlag := by
  simp only [emitRequest, State.setResult_faultFlag, State.setExpectRsp_faultFlag, State.setExcClass_faultFlag, State.setExcCode_faultFlag]
  simp only [State.faultFlag]
@[simp] theorem emitRequest_faultCause (fr : List Byte) (slave : Byte) (s : State) : (emitRequest fr slave s).faultCause = s.faultCause := by
  simp only [emitRequest, State.setResult_faultCause, State.setExpectRsp_faultCause, State.setExcClass_faultCause, State.setExcCode_faultCause]
  simp only [State.faultCause]
@[simp] theorem emitRequest_excCode (fr : List Byte) (slave : Byte) (s : State) : (emitRequest fr slave s).excCode = 0 := by
  simp [emitRequest]
@[simp] theorem emitRequest_faulted (fr : List Byte) (slave : Byte) (s : State) : (emitRequest fr slave s).faulted = s.faulted := by
  simp only [emitRequest, State.setResult_faulted, State.setExpectRsp_faulted, State.setExcClass_faulted, State.setExcCode_faulted]
  simp only [State.faulted, State.faultFlag]

/-- `TXBUF[0..TXLEN-1]` after BUILD is the frame. -/
@[simp] theorem emitRequest_txBytes (fr : List Byte) (slave : Byte) (s : State) (h : fr.length ≤ 128) :
    (emitRequest fr slave s).txBytes = fr := by
  simp only [State.txBytes, emitRequest_txBuf, emitRequest_txLen, BitVec.toNat_ofNat]
  rw [Nat.mod_eq_of_lt (by omega)]
  exact overlay_take fr s.txBuf h

/-- What passing the checks of BUILD says (R105). -/
theorem buildCheck_ok {s : State} {slave f : Byte} {count : Word} :
    buildCheck s slave f count = .ok () ↔ s.descLoaded = true ∧ validDesc slave f count = true ∧
      (isWrite f = true → bufferInRange s f count = true) := by
  unfold buildCheck
  cases s.descLoaded <;> cases validDesc slave f count <;> cases isWrite f <;> cases bufferInRange s f count <;> simp

/-- The causes BUILD's checks raise have a code. -/
theorem buildCheck_error {s : State} {slave f : Byte} {count : Word} {c : FaultCause}
    (h : buildCheck s slave f count = .error c) : c ≠ .uninitBuf := by
  unfold buildCheck at h
  split at h
  · simp at h; subst h; decide
  · split at h
    · simp at h; subst h; decide
    · split at h
      · simp at h; subst h; decide
      · simp at h

/-- Everything the body of BUILD can give: the checks passed, the payload was packed, and the frame is emitted. -/
theorem buildBody_ok {s t : State} (h : buildBody s = .ok t) :
    buildCheck s s.dSlave s.dFunc s.dCount = .ok () ∧ ∃ payload, requestPayload s = .ok payload ∧
      t = emitRequest (crcFrame (requestHead s.dSlave s.dFunc s.dAddr s.dCount ++ payload)) s.dSlave s := by
  unfold buildBody at h
  split at h
  · simp at h
  · rename_i hc
    split at h
    · simp at h
    · rename_i payload hp
      exact ⟨hc, payload, hp, by simpa using h.symm⟩

/-- Everything a request form can answer with a next state. -/
theorem buildForm_next {slave f : Byte} {count : Word} {ok : Bool} {fr : List Byte} {s t : State}
    (h : buildForm slave f count ok fr s = .next t) :
    (s.faulted = true ∧ t = s) ∨
      (s.faulted = false ∧ ∃ c, c ≠ .uninitBuf ∧ buildCheck s slave f count = .error c ∧ t = enterFault c s) ∨
      (s.faulted = false ∧ buildCheck s slave f count = .ok () ∧ ok = true ∧ t = emitRequest fr slave s) := by
  unfold buildForm at h
  split at h
  · rename_i hf
    exact .inl ⟨hf, by simpa using h.symm⟩
  · rename_i hf
    simp only [Bool.not_eq_true] at hf
    cases hc : buildCheck s slave f count with
    | error c =>
      simp only [hc] at h
      obtain ⟨h1, h2⟩ := raiseFault_next h
      exact .inr (.inl ⟨hf, c, h1, rfl, h2⟩)
    | ok u =>
      simp only [hc] at h
      split at h
      · rename_i hok
        exact .inr (.inr ⟨hf, rfl, hok, by simpa using h.symm⟩)
      · simp at h

end Sys2Proof.Machine
end

