-- ==== Sys2Proof/Laws/Exec.lean ====
section
/-! SUPPORT. What an instruction can do, said once (spec/60_exceptions.md R152, R154; spec/42_serializer.md R105;
spec/43_deserializer.md R125): the inversion of exec over all 26 constructors, the command port, and how the parts of a
request add up. -/
namespace Sys2Proof.Machine

/-! ### Request frames -/

@[simp] theorem requestHead_length (slave f : Byte) (addr count : Word) : (requestHead slave f addr count).length = 6 := rfl

@[simp] theorem crcFrame_length (body : List Byte) : (crcFrame body).length = body.length + 2 := by
  simp [crcFrame, crcBytes]

/-- The length of what follows a request's head (R69). -/
theorem requestPayload_length {s : State} {p : List Byte} (h : requestPayload s = .ok p) :
    p.length = if isWrite s.dFunc then 1 + dataBytes s.dFunc s.dCount.toNat else 0 := by
  rcases requestPayload_ok h with ⟨hw, rfl⟩ | ⟨hw, ws, hr, rfl⟩
  · simp [hw]
  · rw [List.length_cons, requestData_length hw (readWords_ok.1 hr).1, hw]
    simp
    omega

/-- The body of a request fits beside its CRC (R70). -/
theorem requestBody_length {s : State} {p : List Byte} (hp : requestPayload s = .ok p)
    (hv : validDesc s.dSlave s.dFunc s.dCount = true) :
    (requestHead s.dSlave s.dFunc s.dAddr s.dCount ++ p).length ≤ 126 := by
  rw [List.length_append, requestHead_length, requestPayload_length hp]
  have := (validDesc_bounds hv).2.2
  split
  · rename_i hw
    have := this hw
    omega
  · omega

/-! ### The shared meanings -/

/-- BUILD when its checks pass and its payload is packed. -/
theorem execBuild_ok {s : State} {p : List Byte} (hf : s.faulted = false)
    (hc : buildCheck s s.dSlave s.dFunc s.dCount = .ok ()) (hp : requestPayload s = .ok p) :
    execBuild s = .next (emitRequest (crcFrame (requestHead s.dSlave s.dFunc s.dAddr s.dCount ++ p)) s.dSlave s) := by
  simp [execBuild, buildBody, hc, hp, hf]

/-- BUILD when a check fails. -/
theorem execBuild_error {s : State} {c : FaultCause} (hf : s.faulted = false)
    (hc : buildCheck s s.dSlave s.dFunc s.dCount = .error c) : execBuild s = raiseFault c s := by
  simp [execBuild, buildBody, hc, hf]

/-- A request form whose checks pass. -/
theorem buildForm_ok {slave f : Byte} {count : Word} {fr : List Byte} {s : State} (hf : s.faulted = false)
    (hc : buildCheck s slave f count = .ok ()) : buildForm slave f count true fr s = .next (emitRequest fr slave s) := by
  simp [buildForm, hf, hc]

/-- VALIDATE when its checks pass. -/
theorem judgeFrame_ok {s : State} (r : List Byte) (hf : s.faulted = false) (hc : validateCheck s = .ok ()) :
    judgeFrame r s = .next
      (if verdict r s = .success ∧ isRead s.dFunc = true then
        { recordVerdict (verdict r s) r s with
          bufMem := memSetAll s.bufMem s.dBase.toNat (responseWords s.cfg.coilLayout s.dFunc r s.dCount.toNat) }
      else recordVerdict (verdict r s) r s) := by
  rw [judgeFrame, validateBody_of_check r hc, runCommand_ok _ hf]

/-- VALIDATE when a check fails. -/
theorem judgeFrame_error {s : State} {c : FaultCause} (r : List Byte) (hf : s.faulted = false)
    (hc : validateCheck s = .error c) : judgeFrame r s = raiseFault c s := by
  simp [judgeFrame, validateBody, hc, hf]

/-! ### Host reads -/

@[simp] theorem afterRead_ok {α : Type} (v : α) (s : State) : afterRead (.ok v) s = .next s := rfl

@[simp] theorem afterRead_error {α : Type} (e : Fault) (s : State) : afterRead (.error e : Except Fault α) s = .fault e := rfl

/-- A host read of a written word. -/
theorem hostReadWord_written {a : Word} {w : Word} {s : State} (ha : a.toNat < s.cfg.bufWords)
    (hm : memGet s.bufMem a.toNat = some w) : hostReadWord a s = .ok w := by
  simp [hostReadWord, ha, hm]

/-- A host read answers some word exactly when the address is in `BUFMEM`. -/
theorem hostReadWord_ok_iff {a : Word} {s : State} : (∃ w, hostReadWord a s = .ok w) ↔ a.toNat < s.cfg.bufWords := by
  simp only [hostReadWord]
  split <;> simp [*]

/-- A register read's only fault, and where it is (R28, R32). -/
theorem hostReadRegister_error {r : HostRegister} {s : State} {e : Fault} (h : hostReadRegister r s = .error e) :
    e = .hostReadUndefined ∧ (s.descLoaded = false ∨ ∃ i, r = .txBuf i ∧ s.txLen.toNat ≤ i.val) := by
  cases r <;> simp only [hostReadRegister, descValue, reduceCtorEq] at h
  case txBuf i =>
    split at h
    · cases h
    · exact ⟨by simpa using h.symm, .inr ⟨i, rfl, by omega⟩⟩
  all_goals
    split at h
    · cases h
    · exact ⟨by simpa using h.symm, .inl (by simp_all)⟩

/-! ### Reserved bits -/

theorem enterFault_reservedKept (c : FaultCause) (s : State) : ReservedKept s (enterFault c s) := by
  constructor <;>
    simp only [enterFault, State.setFaultCause, State.setFaultFlag] <;>
    repeat rw [field_withField_disjoint _ _ _ _ _ (by decide)]

theorem emitRequest_reservedKept (fr : List Byte) (slave : Byte) (s : State) : ReservedKept s (emitRequest fr slave s) := by
  constructor <;>
    simp only [emitRequest, State.setExcCode, State.setExcClass, State.setExpectRsp, State.setResult] <;>
    repeat rw [field_withField_disjoint _ _ _ _ _ (by decide)]

theorem recordVerdict_reservedKept (v : Verdict) (r : List Byte) (s : State) : ReservedKept s (recordVerdict v r s) := by
  unfold recordVerdict
  split <;> constructor <;>
    simp only [State.setExcCode, State.setExcClass, State.setResult] <;>
    repeat rw [field_withField_disjoint _ _ _ _ _ (by decide)]

/-- What fault entry writes (R152), in the terms of the statements. -/
theorem enterFault_faultEntered (c : FaultCause) (s : State) : FaultEntered s (enterFault c s) (causeCode c) :=
  ⟨rfl, by simp, by simp, by simp [ProtocolFieldsKept], enterFault_reservedKept c s⟩

/-! ### Inversion -/

/-- `t` is a state instruction `i` may leave when it starts in `s`: the gate held it (R154), it faulted (R152), or it took
its effect. -/
inductive Effect (i : Instr) (s : State) : State → Prop where
  | gated (hf : s.faulted = true) : Effect i s s
  | fault (hf : s.faulted = false) (c : FaultCause) (hc : c ≠ .uninitBuf)
      (hi : i = .build ∨ i = .validate ∨ ∀ w, encode i ≠ .command w) : Effect i s (enterFault c s)
  | nop (hf : s.faulted = false) (hi : i = .nop) : Effect i s s
  | crcInit (hf : s.faulted = false) (hi : i = .crcInit) : Effect i s { s with crc := crcStart }
  | crcByte (hf : s.faulted = false) (b : Byte) (hi : i = .crcByte b) : Effect i s { s with crc := crcUpdate s.crc b }
  | loadDesc (hf : s.faulted = false) (slave func : Byte) (addr count base : Word) (hi : i = .loadDesc slave func addr count base) :
      Effect i s { s with
        dSlave := slave
        dFunc := func
        dAddr := addr
        dCount := count
        dBase := base
        descLoaded := true }
  | rxClear (hf : s.faulted = false) (hi : i = .rxClear) : Effect i s ((({ s with rxLen := 0 }).setRxOvf 0).setResult .none)
  | rxPush (hf : s.faulted = false) (b : Byte) (hi : i = .rxPush b) (hl : s.rxLen.toNat < maxFrame) :
      Effect i s { s with
        rxBuf := s.rxBuf.setIfInBounds s.rxLen.toNat b
        rxLen := s.rxLen + 1 }
  | rxOverflow (hf : s.faulted = false) (b : Byte) (hi : i = .rxPush b) (hl : maxFrame ≤ s.rxLen.toNat) :
      Effect i s (s.setRxOvf 1)
  | request (hf : s.faulted = false) (hi : i = .build ∨ ∃ fr, encode i = .request fr) (body : List Byte) (slave : Byte)
      (h6 : 6 ≤ body.length) (h126 : body.length ≤ 126) : Effect i s (emitRequest (crcFrame body) slave s)
  | stored (hf : s.faulted = false) (hi : i = .validate ∨ ∃ fr, encode i = .response fr) (r : List Byte)
      (hc : validateCheck s = .ok ()) (hv : verdict r s = .success) (hr : isRead s.dFunc = true) :
      Effect i s { recordVerdict .success r s with
        bufMem := memSetAll s.bufMem s.dBase.toNat (responseWords s.cfg.coilLayout s.dFunc r s.dCount.toNat) }
  | judged (hf : s.faulted = false) (hi : i = .validate ∨ ∃ fr, encode i = .response fr) (r : List Byte)
      (hc : validateCheck s = .ok ()) (hv : ¬ (verdict r s = .success ∧ isRead s.dFunc = true)) :
      Effect i s (recordVerdict (verdict r s) r s)

/-- VALIDATE and the response forms. -/
theorem judgeFrame_effect {i : Instr} {r : List Byte} {s t : State} (hi : i = .validate ∨ ∃ fr, encode i = .response fr)
    (h : judgeFrame r s = .next t) : Effect i s t := by
  rcases runCommand_next h with ⟨hf, rfl⟩ | ⟨hf, hb⟩ | ⟨hf, c, hc, _, rfl⟩
  · exact .gated hf
  · cases hc : validateCheck s with
    | error c => simp [validateBody, hc] at hb
    | ok u =>
      rw [validateBody_of_check r hc] at hb
      split at hb
      · rename_i hv
        rw [hv.1] at hb
        cases hb
        exact .stored hf hi r hc hv.1 hv.2
      · rename_i hv
        cases hb
        exact .judged hf hi r hc hv
  · refine .fault hf c hc ?_
    rcases hi with rfl | ⟨fr, he⟩
    · exact .inr (.inl rfl)
    · exact .inr (.inr fun w hw => by rw [he] at hw; cases hw)

/-- The request forms. -/
theorem buildForm_effect {i : Instr} {slave f : Byte} {count : Word} {ok : Bool} {fr body : List Byte} {s t : State}
    (hi : encode i = .request fr) (h6 : 6 ≤ body.length)
    (hfr : validDesc slave f count = true → ok = true → fr = crcFrame body ∧ body.length ≤ 126)
    (h : buildForm slave f count ok fr s = .next t) : Effect i s t := by
  rcases buildForm_next h with ⟨hf, rfl⟩ | ⟨hf, c, hc, _, rfl⟩ | ⟨hf, hc, hok, rfl⟩
  · exact .gated hf
  · exact .fault hf c hc (.inr (.inr fun w hw => by rw [hi] at hw; cases hw))
  · obtain ⟨h1, h2⟩ := hfr (buildCheck_ok.1 hc).2.1 hok
    rw [h1] at hi ⊢
    exact .request hf (.inr ⟨_, hi⟩) body slave h6 h2

/-- The read requests. -/
theorem buildReadForm_effect {i : Instr} {f slave : Byte} {addr count crc : Word} {s t : State}
    (hi : encode i = .request (readRequestBytes slave f addr count crc))
    (h : buildReadForm f slave addr count crc s = .next t) : Effect i s t := by
  refine buildForm_effect (body := requestHead slave f addr count) hi (by simp) (fun _ hok => ⟨?_, by simp⟩) h
  simp only [readRequestOk, beq_iff_eq] at hok
  rw [readRequestBytes, hok, crcFrame]

/-- The write requests. -/
theorem buildWriteForm_effect {i : Instr} {f slave byteCount : Byte} {addr count crc : Word} {data : List Byte} {s t : State}
    (hw : isWrite f = true) (hi : encode i = .request (writeRequestBytes slave f addr count byteCount data crc))
    (h : buildWriteForm f slave addr count byteCount data crc s = .next t) : Effect i s t := by
  refine buildForm_effect (body := requestHead slave f addr count ++ (byteCount :: data)) hi (by simp)
    (fun hv hok => ?_) h
  simp only [writeRequestOk, Bool.and_eq_true, beq_iff_eq] at hok
  refine ⟨by rw [writeRequestBytes, hok.2, crcFrame], ?_⟩
  have := (validDesc_bounds hv).2.2 hw
  simp only [List.length_append, requestHead_length, List.length_cons, hok.1.1.2]
  omega

/-- Everything an instruction can answer with a next state. -/
theorem exec_effect {i : Instr} {s t : State} (h : exec i s = .next t) : Effect i s t := by
  cases i with
  | nop =>
    simp only [exec, execNop] at h
    rcases runCommand_ok_next h with ⟨hf, rfl⟩ | ⟨hf, rfl⟩
    · exact .gated hf
    · exact .nop hf rfl
  | crcInit =>
    simp only [exec, execCrcInit] at h
    rcases runCommand_ok_next h with ⟨hf, rfl⟩ | ⟨hf, rfl⟩
    · exact .gated hf
    · exact .crcInit hf rfl
  | crcByte b =>
    simp only [exec, execCrcByte] at h
    rcases runCommand_ok_next h with ⟨hf, rfl⟩ | ⟨hf, rfl⟩
    · exact .gated hf
    · exact .crcByte hf b rfl
  | loadDesc slave func addr count base =>
    simp only [exec, execLoadDesc] at h
    rcases runCommand_ok_next h with ⟨hf, rfl⟩ | ⟨hf, rfl⟩
    · exact .gated hf
    · exact .loadDesc hf slave func addr count base rfl
  | build =>
    rcases runCommand_next h with ⟨hf, rfl⟩ | ⟨hf, hb⟩ | ⟨hf, c, hc, _, rfl⟩
    · exact .gated hf
    · obtain ⟨hc, p, hp, rfl⟩ := buildBody_ok hb
      exact .request hf (.inl rfl) _ _ (by simp) (requestBody_length hp (buildCheck_ok.1 hc).2.1)
    · exact .fault hf c hc (.inl rfl)
  | rxClear =>
    simp only [exec, execRxClear] at h
    rcases runCommand_ok_next h with ⟨hf, rfl⟩ | ⟨hf, rfl⟩
    · exact .gated hf
    · exact .rxClear hf rfl
  | rxPush b =>
    simp only [exec, execRxPush] at h
    rcases runCommand_ok_next h with ⟨hf, rfl⟩ | ⟨hf, rfl⟩
    · exact .gated hf
    · split
      · rename_i hl
        exact .rxPush hf b rfl hl
      · rename_i hl
        exact .rxOverflow hf b rfl (by omega)
  | validate => exact judgeFrame_effect (.inl rfl) h
  | reqReadCoilStatus slave addr count crc => exact buildReadForm_effect rfl h
  | reqReadInputStatus slave addr count crc => exact buildReadForm_effect rfl h
  | reqReadHoldingRegisters slave addr count crc => exact buildReadForm_effect rfl h
  | reqReadInputRegisters slave addr count crc => exact buildReadForm_effect rfl h
  | reqForceMultipleCoils slave addr count n data crc => exact buildWriteForm_effect rfl rfl h
  | reqPresetMultipleRegisters slave addr count n data crc => exact buildWriteForm_effect rfl rfl h
  | rspReadCoilStatus slave n data crc => exact judgeFrame_effect (.inr ⟨_, rfl⟩) h
  | rspReadInputStatus slave n data crc => exact judgeFrame_effect (.inr ⟨_, rfl⟩) h
  | rspReadHoldingRegisters slave n data crc => exact judgeFrame_effect (.inr ⟨_, rfl⟩) h
  | rspReadInputRegisters slave n data crc => exact judgeFrame_effect (.inr ⟨_, rfl⟩) h
  | rspForceMultipleCoils slave addr count crc => exact judgeFrame_effect (.inr ⟨_, rfl⟩) h
  | rspPresetMultipleRegisters slave addr count crc => exact judgeFrame_effect (.inr ⟨_, rfl⟩) h
  | rspExcReadCoilStatus slave code crc => exact judgeFrame_effect (.inr ⟨_, rfl⟩) h
  | rspExcReadInputStatus slave code crc => exact judgeFrame_effect (.inr ⟨_, rfl⟩) h
  | rspExcReadHoldingRegisters slave code crc => exact judgeFrame_effect (.inr ⟨_, rfl⟩) h
  | rspExcReadInputRegisters slave code crc => exact judgeFrame_effect (.inr ⟨_, rfl⟩) h
  | rspExcForceMultipleCoils slave code crc => exact judgeFrame_effect (.inr ⟨_, rfl⟩) h
  | rspExcPresetMultipleRegisters slave code crc => exact judgeFrame_effect (.inr ⟨_, rfl⟩) h

/-! ### The command port -/

/-- A command word that spells an instruction runs it (R54). -/
theorem presentCommand_of_decode {w : CommandWord} {i : Instr} (s : State) (h : decode (.command w) = .ok i) :
    presentCommand w s = exec i s := by
  simp only [presentCommand, h]

/-- Everything a step can answer with a next state. -/
theorem step_next {s t : State} (h : step s = .next t) :
    (s.hostActions = [] ∧ t = s) ∨ ∃ a rest, s.hostActions = a :: rest ∧
      ((∃ w i, a = .command w ∧ decode (.command w) = .ok i ∧ exec i { s with hostActions := rest } = .next t) ∨
        (∃ k v, a = .hostWr k v ∧ k.toNat < s.cfg.bufWords ∧
          t = { s with bufMem := memSet s.bufMem k.toNat v, hostActions := rest }) ∨
        (((∃ k, a = .hostRd k) ∨ ∃ r, a = .readRegister r) ∧ t = { s with hostActions := rest }) ∨
        (a = .reset ∧ t = hostReset { s with hostActions := rest })) := by
  simp only [step, hostStep] at h
  split at h
  · rename_i ha
    exact .inl ⟨ha, by simpa using h.symm⟩
  · rename_i a rest ha
    refine .inr ⟨a, rest, ha, ?_⟩
    cases a with
    | command w =>
      simp only [performAction, presentCommand] at h
      split at h
      · rename_i i hd
        exact .inl ⟨w, i, rfl, hd, h⟩
      · simp at h
    | hostWr k v =>
      simp only [performAction, hostWrite] at h
      split at h
      · rename_i hk
        exact .inr (.inl ⟨k, v, rfl, hk, by simpa using h.symm⟩)
      · simp at h
    | hostRd k =>
      simp only [performAction, afterRead] at h
      split at h
      · exact .inr (.inr (.inl ⟨.inl ⟨k, rfl⟩, by simpa using h.symm⟩))
      · simp at h
    | readRegister r =>
      simp only [performAction, afterRead] at h
      split at h
      · exact .inr (.inr (.inl ⟨.inr ⟨r, rfl⟩, by simpa using h.symm⟩))
      · simp at h
    | reset => exact .inr (.inr (.inr ⟨rfl, by simpa [performAction] using h.symm⟩))

end Sys2Proof.Machine
end

