-- ==== Sys2Proof/Laws/PerInstr.lean ====
section
/-! SUPPORT. The per-instruction family FrameLength: a well-formed instruction is at least five and at most 128 bytes long
(spec/30_encoding.md R54, R62 to R66, R70; spec/10_state.md R27, R29). A command is nine bytes. -/
namespace Sys2Proof.Laws.FrameLength

/-- The bytes of a well-formed instruction are 5 to 128. -/
def Statement (i : Instr) : Prop :=
  i.wellFormed = true → 5 ≤ (codeBytes (encode i)).length ∧ (codeBytes (encode i)).length ≤ 128

/-- The length of a command. -/
theorem command_length (w : CommandWord) : (codeBytes (.command w)).length = 9 := by
  simp [codeBytes]

/-- The length of a write request. -/
theorem writeRequest_length (slave f : Byte) (addr count : Word) (n : Byte) (data : List Byte) (crc : Word) :
    (writeRequestBytes slave f addr count n data crc).length = 9 + data.length := by
  simp [writeRequestBytes, requestHead, crcBytes]
  omega

/-- The length of a read response. -/
theorem readResponse_length (slave f n : Byte) (data : List Byte) (crc : Word) :
    (readResponseBytes slave f n data crc).length = 5 + data.length := by
  simp [readResponseBytes, crcBytes]
  omega

/-- A well-formed write request fits `TXBUF`. -/
theorem writeRequest_fits {slave f : Byte} {addr count : Word} {n : Byte} {data : List Byte} {crc : Word}
    (hf : isWrite f = true) (h : writeRequestWf slave f addr count n data crc = true) :
    5 ≤ (writeRequestBytes slave f addr count n data crc).length ∧
      (writeRequestBytes slave f addr count n data crc).length ≤ 128 := by
  simp only [writeRequestWf, writeRequestOk, Bool.and_eq_true, beq_iff_eq] at h
  have := (Machine.validDesc_bounds h.1).2.2 hf
  rw [writeRequest_length, h.2.1.1.2]
  omega

/-- A well-formed read response fits `RXBUF`. -/
theorem readResponse_fits {slave f n : Byte} {data : List Byte} {crc : Word} (h : readResponseWf data = true) :
    5 ≤ (readResponseBytes slave f n data crc).length ∧ (readResponseBytes slave f n data crc).length ≤ 128 := by
  simp [readResponseWf, maxFrame] at h
  rw [readResponse_length]
  omega

theorem nop : Statement .nop := fun _ => by
  rw [encode, command_length]
  omega
theorem crcInit : Statement .crcInit := fun _ => by
  rw [encode, command_length]
  omega
theorem crcByte (b : Byte) : Statement (.crcByte b) := fun _ => by
  rw [encode, command_length]
  omega
theorem loadDesc (slave func : Byte) (addr count base : Word) : Statement (.loadDesc slave func addr count base) := fun _ => by
  rw [encode, command_length]
  omega
theorem build : Statement .build := fun _ => by
  rw [encode, command_length]
  omega
theorem rxClear : Statement .rxClear := fun _ => by
  rw [encode, command_length]
  omega
theorem rxPush (b : Byte) : Statement (.rxPush b) := fun _ => by
  rw [encode, command_length]
  omega
theorem validate : Statement .validate := fun _ => by
  rw [encode, command_length]
  omega
theorem reqReadCoilStatus (slave : Byte) (addr count crc : Word) : Statement (.reqReadCoilStatus slave addr count crc) :=
  fun _ => by simp [encode, codeBytes, readRequestBytes, requestHead, crcBytes]
theorem reqReadInputStatus (slave : Byte) (addr count crc : Word) : Statement (.reqReadInputStatus slave addr count crc) :=
  fun _ => by simp [encode, codeBytes, readRequestBytes, requestHead, crcBytes]
theorem reqReadHoldingRegisters (slave : Byte) (addr count crc : Word) : Statement (.reqReadHoldingRegisters slave addr count crc) :=
  fun _ => by simp [encode, codeBytes, readRequestBytes, requestHead, crcBytes]
theorem reqReadInputRegisters (slave : Byte) (addr count crc : Word) : Statement (.reqReadInputRegisters slave addr count crc) :=
  fun _ => by simp [encode, codeBytes, readRequestBytes, requestHead, crcBytes]
theorem reqForceMultipleCoils (slave : Byte) (addr count : Word) (byteCount : Byte) (data : List Byte) (crc : Word) : Statement (.reqForceMultipleCoils slave addr count byteCount data crc) := fun h => writeRequest_fits rfl h
theorem reqPresetMultipleRegisters (slave : Byte) (addr count : Word) (byteCount : Byte) (data : List Byte) (crc : Word) : Statement (.reqPresetMultipleRegisters slave addr count byteCount data crc) := fun h => writeRequest_fits rfl h
theorem rspReadCoilStatus (slave byteCount : Byte) (data : List Byte) (crc : Word) : Statement (.rspReadCoilStatus slave byteCount data crc) := fun h => readResponse_fits h
theorem rspReadInputStatus (slave byteCount : Byte) (data : List Byte) (crc : Word) : Statement (.rspReadInputStatus slave byteCount data crc) := fun h => readResponse_fits h
theorem rspReadHoldingRegisters (slave byteCount : Byte) (data : List Byte) (crc : Word) : Statement (.rspReadHoldingRegisters slave byteCount data crc) := fun h => readResponse_fits h
theorem rspReadInputRegisters (slave byteCount : Byte) (data : List Byte) (crc : Word) : Statement (.rspReadInputRegisters slave byteCount data crc) := fun h => readResponse_fits h
theorem rspForceMultipleCoils (slave : Byte) (addr count crc : Word) : Statement (.rspForceMultipleCoils slave addr count crc) :=
  fun _ => by simp [encode, codeBytes, writeResponseBytes, requestHead, crcBytes]
theorem rspPresetMultipleRegisters (slave : Byte) (addr count crc : Word) : Statement (.rspPresetMultipleRegisters slave addr count crc) :=
  fun _ => by simp [encode, codeBytes, writeResponseBytes, requestHead, crcBytes]
theorem rspExcReadCoilStatus (slave code : Byte) (crc : Word) : Statement (.rspExcReadCoilStatus slave code crc) :=
  fun _ => by simp [encode, codeBytes, excResponseBytes, crcBytes]
theorem rspExcReadInputStatus (slave code : Byte) (crc : Word) : Statement (.rspExcReadInputStatus slave code crc) :=
  fun _ => by simp [encode, codeBytes, excResponseBytes, crcBytes]
theorem rspExcReadHoldingRegisters (slave code : Byte) (crc : Word) : Statement (.rspExcReadHoldingRegisters slave code crc) :=
  fun _ => by simp [encode, codeBytes, excResponseBytes, crcBytes]
theorem rspExcReadInputRegisters (slave code : Byte) (crc : Word) : Statement (.rspExcReadInputRegisters slave code crc) :=
  fun _ => by simp [encode, codeBytes, excResponseBytes, crcBytes]
theorem rspExcForceMultipleCoils (slave code : Byte) (crc : Word) : Statement (.rspExcForceMultipleCoils slave code crc) :=
  fun _ => by simp [encode, codeBytes, excResponseBytes, crcBytes]
theorem rspExcPresetMultipleRegisters (slave code : Byte) (crc : Word) : Statement (.rspExcPresetMultipleRegisters slave code crc) :=
  fun _ => by simp [encode, codeBytes, excResponseBytes, crcBytes]

end Sys2Proof.Laws.FrameLength
end

