-- ==== Sys2Proof/Tests/Slice0.lean ====
section
/-! SUPPORT. Tests and witnesses. Every expected value is the spec's: the V- and P- names are rows of
spec/95_test_vectors.md, the R names rules of the encodings. Each test is one step, or one decoding, on a small state. -/
namespace Sys2Proof.Tests
open Sys2Proof.Machine

set_option maxRecDepth 20000

/-! ## Helpers -/

/-- The outcome is a next state with this property. -/
def holds (o : Host.Outcome State Fault Refusal) (p : State → Bool) : Bool :=
  match o with
  | .next s => p s
  | .fault _ => false
  | .refused _ => false

/-- The outcome is this fault. -/
def faults (o : Host.Outcome State Fault Refusal) (f : Fault) : Bool :=
  match o with
  | .next _ => false
  | .fault g => g == f
  | .refused _ => false

/-- The outcome is this refusal. -/
def refuses (o : Host.Outcome State Fault Refusal) (r : Refusal) : Bool :=
  match o with
  | .next _ => false
  | .fault _ => false
  | .refused q => q == r

theorem holds_next {o : Host.Outcome State Fault Refusal} {p : State → Bool} (h : holds o p = true) :
    ∃ t, o = .next t ∧ p t = true := by
  cases o with
  | next t => exact ⟨t, rfl, h⟩
  | fault f => simp [holds] at h
  | refused r => simp [holds] at h

/-- `BUFMEM` with these words from address 0 up. -/
def words (ws : List Word) : Memory := (List.range ws.length).map fun k => (k, ws.getD k 0)

/-- After reset and a LOAD_DESC, with these buffer words written. -/
def loaded (slave f : Byte) (addr count base : Word) (ws : List Word) : State :=
  { State.reset with
    dSlave := slave
    dFunc := f
    dAddr := addr
    dCount := count
    dBase := base
    descLoaded := true
    bufMem := words ws }

/-- The same, with these bytes received. -/
def received (slave f : Byte) (addr count base : Word) (ws : List Word) (r : List Byte) : State :=
  withReceived r (loaded slave f addr count base ws)

/-- The other coil layout. -/
def packed (s : State) : State := { s with cfg := { s.cfg with coilLayout := .packed16 } }

/-- A faulted block. -/
def faulty : State := enterFault .badDesc State.reset

/-- The block with one host action to take. -/
def acting (a : HostAction) (s : State) : State := { s with hostActions := [a] }

/-- The response of V-VAL-1. -/
def fc3 : List Byte := [0x11, 0x03, 0x06, 0xAE, 0x41, 0x56, 0x52, 0x43, 0x40, 0x49, 0xAD]

/-- The ten coils of V-BLD-10. -/
def coils : List Word := [1, 0, 1, 1, 0, 0, 1, 1, 1, 0]

/-! ## Ill-formed instructions are refused by WellFormed -/

/-- The slave check (R82). -/
theorem test_illFormed_slave :
    (.reqReadHoldingRegisters 248 0 1 (crc16 (requestHead 248 3 0 1)) : Instr).wellFormed = false := by decide

/-- The broadcast check (R84). -/
theorem test_illFormed_broadcastRead :
    (.reqReadHoldingRegisters 0 0 1 (crc16 (requestHead 0 3 0 1)) : Instr).wellFormed = false := by decide

/-- The count check, below (R85). -/
theorem test_illFormed_countZero :
    (.reqReadCoilStatus 17 0 0 (crc16 (requestHead 17 1 0 0)) : Instr).wellFormed = false := by decide

/-- The count check of functions 1 to 4, above (R85). -/
theorem test_illFormed_countRead :
    (.reqReadInputStatus 17 0 62 (crc16 (requestHead 17 2 0 62)) : Instr).wellFormed = false := by decide

/-- The count check of function 16, above (R85). -/
theorem test_illFormed_countWrite16 :
    (.reqPresetMultipleRegisters 17 0 60 120 (List.replicate 120 0)
      (crc16 (requestHead 17 16 0 60 ++ 120 :: List.replicate 120 0)) : Instr).wellFormed = false := by decide +kernel

/-- The count check of function 15, above (R85). -/
theorem test_illFormed_countWrite15 :
    (.reqForceMultipleCoils 17 0 953 120 (List.replicate 120 0)
      (crc16 (requestHead 17 15 0 953 ++ 120 :: List.replicate 120 0)) : Instr).wellFormed = false := by decide +kernel

/-- The CRC of a read request (R62): V-BLD-6 with one bit wrong. -/
theorem test_illFormed_readCrc : (.reqReadInputRegisters 17 8 1 0x98B3 : Instr).wellFormed = false := by decide

/-- The byte count (R69). -/
theorem test_illFormed_byteCount :
    (.reqForceMultipleCoils 17 0x13 10 3 [0xCD, 0x01] (crc16 (requestHead 17 15 0x13 10 ++ [3, 0xCD, 0x01])) : Instr).wellFormed = false := by decide

/-- The data length (R63, R69). -/
theorem test_illFormed_dataLength :
    (.reqForceMultipleCoils 17 0x13 10 2 [0xCD] (crc16 (requestHead 17 15 0x13 10 ++ [2, 0xCD])) : Instr).wellFormed = false := by decide

/-- The bits past the last coil (R112). -/
theorem test_illFormed_padding :
    (.reqForceMultipleCoils 17 0x13 10 2 [0xCD, 0x05] (crc16 (requestHead 17 15 0x13 10 ++ [2, 0xCD, 0x05])) : Instr).wellFormed = false := by decide

/-- The CRC of a write request (R63): V-BLD-15 with one bit wrong. -/
theorem test_illFormed_writeCrc :
    (.reqPresetMultipleRegisters 17 1 2 4 [0x00, 0x0A, 0x01, 0x02] 0xF0C7 : Instr).wellFormed = false := by decide

/-- A response longer than `RXBUF` (R29). -/
theorem test_illFormed_longResponse :
    (.rspReadHoldingRegisters 17 248 (List.replicate 124 0) 0 : Instr).wellFormed = false := by decide +kernel

/-! ## Decoding: one word of each constructor, written out from R55 and R62 to R66 -/

/-- V-DSC-1. -/
theorem test_decode_nop : decode (.command 0x000000000000000000#72) = .ok (.nop) := by decide

/-- V-CRC-2. -/
theorem test_decode_crcInit : decode (.command 0x010000000000000000#72) = .ok (.crcInit) := by decide

/-- V-CRC-11: the bits above the byte are ignored. -/
theorem test_decode_crcByte : decode (.command 0x02FFFFFFFFFFFFFF01#72) = .ok (.crcByte 0x01) := by decide

/-- R55: each field of the argument. -/
theorem test_decode_loadDesc :
    decode (.command 0x0300020002000110FA#72) = .ok (.loadDesc 0xFA 0x10 0x0001 2 2) := by decide

/-- P2. -/
theorem test_decode_build : decode (.command 0x040000000000000000#72) = .ok (.build) := by decide

/-- V-RX-4. -/
theorem test_decode_rxClear : decode (.command 0x050000000000000000#72) = .ok (.rxClear) := by decide

/-- V-RX-7: the bits above the byte are ignored. -/
theorem test_decode_rxPush : decode (.command 0x06FFFFFFFFFFFFFF42#72) = .ok (.rxPush 0x42) := by decide

/-- R56: the argument is ignored. -/
theorem test_decode_validate : decode (.command 0x07DEADBEEF00000000#72) = .ok (.validate) := by decide

/-- V-FLT-5. -/
theorem test_decode_reserved :
    decode (.command 0x080000000000000000#72) = .error (.reservedCommand 0x08) ∧
    decode (.command 0xFF0000000000000007#72) = .error (.reservedCommand 0xFF) := by decide

/-- R61: function 5 is no form of a request; a form has its length. -/
theorem test_decode_unknownFunction :
    decode (.request [0x11, 0x05, 0x00, 0xAC, 0xFF, 0x00, 0x4E, 0x8B]) = .error (.unknownFunction 0x05) ∧
    decode (.request [0x11, 0x03, 0x00, 0x6B, 0x00, 0x03, 0x76]) = .error .wrongLength := by decide

/-- V-BLD-1. -/
theorem test_decode_reqReadCoilStatus :
    decode (.request [0x11, 0x01, 0x00, 0x13, 0x00, 0x25, 0x0E, 0x84]) = .ok (.reqReadCoilStatus 0x11 0x0013 37 0x840E) := by decide

/-- V-BLD-2. -/
theorem test_decode_reqReadInputStatus :
    decode (.request [0x11, 0x02, 0x00, 0xC4, 0x00, 0x16, 0xBA, 0xA9]) = .ok (.reqReadInputStatus 0x11 0x00C4 22 0xA9BA) := by decide

/-- V-BLD-3. -/
theorem test_decode_reqReadHoldingRegisters :
    decode (.request [0x11, 0x03, 0x00, 0x6B, 0x00, 0x03, 0x76, 0x87]) = .ok (.reqReadHoldingRegisters 0x11 0x006B 3 0x8776) := by decide

/-- V-BLD-6. -/
theorem test_decode_reqReadInputRegisters :
    decode (.request [0x11, 0x04, 0x00, 0x08, 0x00, 0x01, 0xB2, 0x98]) = .ok (.reqReadInputRegisters 0x11 0x0008 1 0x98B2) := by decide

/-- V-BLD-10. -/
theorem test_decode_reqForceMultipleCoils :
    decode (.request [0x11, 0x0F, 0x00, 0x13, 0x00, 0x0A, 0x02, 0xCD, 0x01, 0xBF, 0x0B]) = .ok (.reqForceMultipleCoils 0x11 0x0013 10 2 [0xCD, 0x01] 0x0BBF) := by decide

/-- V-BLD-15. -/
theorem test_decode_reqPresetMultipleRegisters :
    decode (.request [0x11, 0x10, 0x00, 0x01, 0x00, 0x02, 0x04, 0x00, 0x0A, 0x01, 0x02, 0xC6, 0xF0]) = .ok (.reqPresetMultipleRegisters 0x11 0x0001 2 4 [0x00, 0x0A, 0x01, 0x02] 0xF0C6) := by decide

/-- V-VAL-2. -/
theorem test_decode_rspReadCoilStatus :
    decode (.response [0x11, 0x01, 0x05, 0xCD, 0x6B, 0xB2, 0x0E, 0x1B, 0x45, 0xE6]) = .ok (.rspReadCoilStatus 0x11 5 [0xCD, 0x6B, 0xB2, 0x0E, 0x1B] 0xE645) := by decide

/-- V-VAL-5. -/
theorem test_decode_rspReadInputStatus :
    decode (.response [0x11, 0x02, 0x03, 0xAC, 0xDB, 0x35, 0x20, 0x18]) = .ok (.rspReadInputStatus 0x11 3 [0xAC, 0xDB, 0x35] 0x1820) := by decide

/-- V-VAL-27: a wrong byte count still decodes, since the received length bounds the frame (R71). -/
theorem test_decode_rspReadHoldingRegisters :
    decode (.response [0x11, 0x03, 0x07, 0xAE, 0x41, 0x56, 0x52, 0x43, 0x40, 0x59, 0x6D]) = .ok (.rspReadHoldingRegisters 0x11 7 [0xAE, 0x41, 0x56, 0x52, 0x43, 0x40] 0x6D59) := by decide

/-- V-VAL-7. -/
theorem test_decode_rspReadInputRegisters :
    decode (.response [0x11, 0x04, 0x02, 0x00, 0x0A, 0xF8, 0xF4]) = .ok (.rspReadInputRegisters 0x11 2 [0x00, 0x0A] 0xF4F8) := by decide

/-- V-VAL-10. -/
theorem test_decode_rspForceMultipleCoils :
    decode (.response [0x11, 0x0F, 0x00, 0x13, 0x00, 0x0A, 0x26, 0x99]) = .ok (.rspForceMultipleCoils 0x11 0x0013 10 0x9926) := by decide

/-- V-VAL-11. -/
theorem test_decode_rspPresetMultipleRegisters :
    decode (.response [0x11, 0x10, 0x00, 0x01, 0x00, 0x02, 0x12, 0x98]) = .ok (.rspPresetMultipleRegisters 0x11 0x0001 2 0x9812) := by decide

/-- V-VAL-15. -/
theorem test_decode_rspExcReadCoilStatus :
    decode (.response [0x11, 0x81, 0x01, 0x80, 0x55]) = .ok (.rspExcReadCoilStatus 0x11 0x01 0x5580) := by decide

/-- R66: the function byte is 0x82. -/
theorem test_decode_rspExcReadInputStatus :
    decode (.response [0x11, 0x82, 0x02, 0xC0, 0xA4]) = .ok (.rspExcReadInputStatus 0x11 0x02 0xA4C0) := by decide

/-- V-VAL-14. -/
theorem test_decode_rspExcReadHoldingRegisters :
    decode (.response [0x11, 0x83, 0x02, 0xC1, 0x34]) = .ok (.rspExcReadHoldingRegisters 0x11 0x02 0x34C1) := by decide

/-- V-VAL-17. -/
theorem test_decode_rspExcReadInputRegisters :
    decode (.response [0x11, 0x84, 0x04, 0x43, 0x06]) = .ok (.rspExcReadInputRegisters 0x11 0x04 0x0643) := by decide

/-- V-VAL-20. -/
theorem test_decode_rspExcForceMultipleCoils :
    decode (.response [0x11, 0x8F, 0x03, 0x05, 0xF4]) = .ok (.rspExcForceMultipleCoils 0x11 0x03 0xF405) := by decide

/-- V-VAL-18. -/
theorem test_decode_rspExcPresetMultipleRegisters :
    decode (.response [0x11, 0x90, 0x0B, 0x0C, 0x02]) = .ok (.rspExcPresetMultipleRegisters 0x11 0x0B 0x020C) := by decide

/-- Log entry 14: the rows of spec/opcode_table.json. -/
theorem test_tableWord_rows :
    decodeTableWord 8 0x04 = some .build ∧ decodeTableWord 16 0x0103 = some (.reqReadHoldingRegisters 0 0x0100 0 0) ∧
    decodeTableWord 8 0x83 = some (.rspExcReadHoldingRegisters 0 0 0) := by decide

/-! ## One step of each instruction -/

/-- V-DSC-1, R154. -/
theorem test_nop_keepsAll : holds (exec (.nop) faulty) (fun t => t == faulty) = true := by decide

/-- V-CRC-2. -/
theorem test_crcInit :
    holds (exec (.crcInit) { State.reset with crc := 0x1234 }) (fun t => t.crc == 0xFFFF) = true := by decide

/-- V-CRC-4. -/
theorem test_crcByte :
    holds (exec (.crcByte 0x56) { State.reset with crc := 0x1234 }) (fun t => t.crc == 0xE993) = true := by decide

/-- V-CRC-13. -/
theorem test_crcByte_gated : holds (exec (.crcByte 0x01) faulty) (fun t => t.crc == 0xFFFF) = true := by decide

/-- V-DSC-3. -/
theorem test_loadDesc_unchecked :
    holds (exec (.loadDesc 250 5 0 0 0) State.reset) (fun t => t.dSlave == 250 && t.dFunc == 5 && t.descLoaded && t.status == 0) = true := by decide

/-- V-DSC-12. -/
theorem test_loadDesc_gated : holds (exec (.loadDesc 17 3 0 1 0) faulty) (fun t => t == faulty) = true := by decide

/-- V-DSC-5. -/
theorem test_build_noDesc :
    holds (exec (.build) State.reset) (fun t => t.status == 0x180 && t.txLen == 0) = true := by decide

/-- V-BLD-10. -/
theorem test_build_coils :
    holds (exec (.build) (loaded 17 15 0x13 10 0 coils)) (fun t => t.txBytes == [0x11, 0x0F, 0x00, 0x13, 0x00, 0x0A, 0x02, 0xCD, 0x01, 0xBF, 0x0B] && t.status == 8) = true := by decide

/-- V-RX-5. -/
theorem test_rxClear_keepsException :
    holds (exec (.rxClear) { State.reset with rxLen := 128, status := 0x00020052 }) (fun t => t.rxLen == 0 && t.status == 0x00020010) = true := by decide

/-- V-RX-2. -/
theorem test_rxPush_last :
    holds (exec (.rxPush 0xAA) { State.reset with rxLen := 127 }) (fun t => t.rxBuf[127] == 0xAA && t.rxLen == 128 && t.rxOvf == 0) = true := by decide

/-- V-RX-3. -/
theorem test_rxPush_overflow :
    holds (exec (.rxPush 0xBB) { State.reset with rxLen := 128 }) (fun t => t.rxLen == 128 && t.rxOvf == 1 && t.rxBuf == State.reset.rxBuf) = true := by decide

/-- V-VAL-1. -/
theorem test_validate_reads :
    holds (exec (.validate) (received 17 3 0x6B 3 0 [1, 1, 1, 0x5555] fc3)) (fun t => t.status == 1 && t.bufMem == words [0xAE41, 0x5652, 0x4340, 0x5555]) = true := by decide

/-- V-VAL-13. -/
theorem test_validate_wrongSlave :
    holds (exec (.validate) (received 17 3 0x6B 3 0 [] [0x12, 0x03, 0x06, 0xAE, 0x41, 0x56, 0x52, 0x43, 0x40, 0x5D, 0x5D])) (fun t => t.status == 3 && t.bufMem == []) = true := by decide

/-- V-BLD-1. -/
theorem test_reqReadCoilStatus :
    holds (exec (.reqReadCoilStatus 17 0x13 37 0x840E) (loaded 17 1 0x13 37 0 [])) (fun t => t.txBytes == [0x11, 0x01, 0x00, 0x13, 0x00, 0x25, 0x0E, 0x84] && t.status == 8) = true := by decide

/-- V-BLD-2. -/
theorem test_reqReadInputStatus :
    holds (exec (.reqReadInputStatus 17 0xC4 22 0xA9BA) (loaded 17 2 0xC4 22 0 [])) (fun t => t.txBytes == [0x11, 0x02, 0x00, 0xC4, 0x00, 0x16, 0xBA, 0xA9] && t.txLen == 8) = true := by decide

/-- V-BLD-8. -/
theorem test_reqReadHoldingRegisters :
    holds (exec (.reqReadHoldingRegisters 247 0xFFFF 1 0xB890) (loaded 247 3 0xFFFF 1 0 [])) (fun t => t.txBytes == [0xF7, 0x03, 0xFF, 0xFF, 0x00, 0x01, 0x90, 0xB8]) = true := by decide

/-- V-BLD-6. -/
theorem test_reqReadInputRegisters :
    holds (exec (.reqReadInputRegisters 17 8 1 0x98B2) (loaded 17 4 8 1 0 [])) (fun t => t.txBytes == [0x11, 0x04, 0x00, 0x08, 0x00, 0x01, 0xB2, 0x98]) = true := by decide

/-- V-BLD-10. -/
theorem test_reqForceMultipleCoils :
    holds (exec (.reqForceMultipleCoils 17 0x13 10 2 [0xCD, 0x01] 0x0BBF) (loaded 17 15 0x13 10 0 coils)) (fun t => t.txLen == 11 && t.txBuf[10] == 0x0B) = true := by decide

/-- V-BLD-16. -/
theorem test_reqPresetMultipleRegisters_broadcast :
    holds (exec (.reqPresetMultipleRegisters 0 1 2 4 [0x00, 0x0A, 0x01, 0x02] 0xCC96) (loaded 0 16 1 2 0 [0x0A, 0x102])) (fun t => t.txLen == 13 && t.status == 0) = true := by decide

/-- V-VAL-9. -/
theorem test_rspReadCoilStatus_padding :
    holds (exec (.rspReadCoilStatus 17 1 [0xFD] 0xC994) (loaded 17 1 0 3 0 [9, 9, 9, 0x5555])) (fun t => t.status == 1 && t.bufMem == words [1, 0, 1, 0x5555]) = true := by decide

/-- V-VAL-5. -/
theorem test_rspReadInputStatus_packed :
    holds (exec (.rspReadInputStatus 17 3 [0xAC, 0xDB, 0x35] 0x1820) (packed (loaded 17 2 0xC4 22 0 [0x5555, 0x5555, 0x5555]))) (fun t => t.status == 1 && t.bufMem == words [0xDBAC, 0x0035, 0x5555]) = true := by decide

/-- V-VAL-27. -/
theorem test_rspReadHoldingRegisters_byteCount :
    holds (exec (.rspReadHoldingRegisters 17 7 [0xAE, 0x41, 0x56, 0x52, 0x43, 0x40] 0x6D59) (loaded 17 3 0x6B 3 0 [])) (fun t => t.status == 3 && t.bufMem == []) = true := by decide

/-- V-VAL-8. -/
theorem test_rspReadInputRegisters :
    holds (exec (.rspReadInputRegisters 17 2 [0xFF, 0xFF] 0x4379) (loaded 17 4 8 1 0 [])) (fun t => t.status == 1 && t.bufMem == words [0xFFFF]) = true := by decide

/-- V-VAL-28. -/
theorem test_rspForceMultipleCoils_badEcho :
    holds (exec (.rspForceMultipleCoils 17 0x13 9 0x9866) (loaded 17 15 0x13 10 60 [])) (fun t => t.status == 3) = true := by decide

/-- V-VAL-11. -/
theorem test_rspPresetMultipleRegisters :
    holds (exec (.rspPresetMultipleRegisters 17 1 2 0x9812) (loaded 17 16 1 2 0 [])) (fun t => t.status == 1) = true := by decide

/-- V-VAL-15. -/
theorem test_rspExcReadCoilStatus :
    holds (exec (.rspExcReadCoilStatus 17 1 0x5580) (loaded 17 1 0x13 37 0 [])) (fun t => t.status == 0x00010002) = true := by decide

/-- R131: as V-VAL-14 for function 2, the CRC worked out from R93 and R94. -/
theorem test_rspExcReadInputStatus :
    holds (exec (.rspExcReadInputStatus 17 2 0xA4C0) (loaded 17 2 0xC4 22 0 [])) (fun t => t.status == 0x00020012) = true := by decide

/-- V-VAL-14. -/
theorem test_rspExcReadHoldingRegisters :
    holds (exec (.rspExcReadHoldingRegisters 17 2 0x34C1) (loaded 17 3 0x6B 3 0 [])) (fun t => t.status == 0x00020012) = true := by decide

/-- V-VAL-21. -/
theorem test_rspExcReadHoldingRegisters_other :
    holds (exec (.rspExcReadHoldingRegisters 17 2 0x34C1) (loaded 17 16 1 2 0 [])) (fun t => t.status == 3) = true := by decide

/-- V-VAL-17. -/
theorem test_rspExcReadInputRegisters :
    holds (exec (.rspExcReadInputRegisters 17 4 0x0643) (loaded 17 4 8 1 0 [])) (fun t => t.status == 0x00040032) = true := by decide

/-- V-VAL-20. -/
theorem test_rspExcForceMultipleCoils :
    holds (exec (.rspExcForceMultipleCoils 17 3 0xF405) (loaded 17 15 0x13 10 0 [])) (fun t => t.status == 0x00030022) = true := by decide

/-- V-VAL-18. -/
theorem test_rspExcPresetMultipleRegisters :
    holds (exec (.rspExcPresetMultipleRegisters 17 0x0B 0x020C) (loaded 17 16 1 2 0 [])) (fun t => t.status == 0x000B0032) = true := by decide

/-! ## Witnesses: states and operands that meet the hypotheses of the statements -/

/-- CommandWordsFollowTheOpcodeMap, its reserved range at both ends. -/
theorem test_witness_commandWords : 0x08 ≤ (0x08#8).toNat ∧ 0x08 ≤ (0xFF#8).toNat := by decide

/-- DecodeInvertsEncode, the commands. -/
theorem test_witness_wellFormed_commands :
    ∀ i ∈ [Instr.nop, .crcInit, .crcByte 0xFF, .loadDesc 0xFF 0xFF 0xFFFF 0xFFFF 0xFFFF, .build, .rxClear, .rxPush 0xFF,
      .validate], i.wellFormed = true := by decide

/-- DecodeInvertsEncode and RequestFormsEmitTheirFrame, the read requests (V-BLD-1, 2, 9, 6). -/
theorem test_witness_wellFormed_readRequests :
    ∀ i ∈ [Instr.reqReadCoilStatus 0x11 0x0013 37 0x840E, .reqReadInputStatus 0x11 0x00C4 22 0xA9BA,
      .reqReadHoldingRegisters 0x11 0xFFFF 61 0xAF86, .reqReadInputRegisters 0x11 8 1 0x98B2], i.wellFormed = true := by decide

/-- DecodeInvertsEncode and RequestFormsEmitTheirFrame, the write requests (V-BLD-10, 14, 16, 17). -/
theorem test_witness_wellFormed_writeRequests :
    ∀ i ∈ [Instr.reqForceMultipleCoils 0x11 0x0013 10 2 [0xCD, 0x01] 0x0BBF,
      .reqForceMultipleCoils 0x11 0 952 119 (List.replicate 119 0xFF) 0x0C9A,
      .reqPresetMultipleRegisters 0 1 2 4 [0x00, 0x0A, 0x01, 0x02] 0xCC96,
      .reqPresetMultipleRegisters 0x11 0 59 118 (List.replicate 118 0) 0x104D], i.wellFormed = true := by decide +kernel

/-- DecodeInvertsEncode, the response forms. -/
theorem test_witness_wellFormed_responses :
    ∀ i ∈ [Instr.rspReadCoilStatus 17 1 [0xFD] 0xC994, .rspReadInputStatus 17 3 [0xAC, 0xDB, 0x35] 0x1820,
      .rspReadHoldingRegisters 17 123 (List.replicate 123 0) 0, .rspReadInputRegisters 17 0 [] 0,
      .rspForceMultipleCoils 17 0x13 10 0x9926, .rspPresetMultipleRegisters 17 1 2 0x9812, .rspExcReadCoilStatus 17 1 0x5580,
      .rspExcReadInputStatus 17 2 0, .rspExcReadHoldingRegisters 17 2 0x34C1, .rspExcReadInputRegisters 17 4 0x0643,
      .rspExcForceMultipleCoils 17 3 0xF405, .rspExcPresetMultipleRegisters 17 0x0B 0x020C], i.wellFormed = true := by decide +kernel

/-- EncodeInvertsFrameDecoding, both directions. -/
theorem test_witness_frameDecoding :
    decode (.request [0x11, 0x03, 0x00, 0x6B, 0x00, 0x03, 0x76, 0x87]) = .ok (.reqReadHoldingRegisters 0x11 0x006B 3 0x8776) ∧
    decode (.response [0x11, 0x83, 0x02, 0xC1, 0x34]) = .ok (.rspExcReadHoldingRegisters 0x11 0x02 0x34C1) := by decide

/-- StepRunsThePresentedCommand. -/
theorem test_witness_stepRuns :
    (acting (.command 0x010000000000000000#72) State.reset).hostActions = [.command 0x010000000000000000#72] ∧
    decode (.command 0x010000000000000000#72) = .ok .crcInit := by decide

/-- ReservedOpcodesAreRefused, at both ends and while faulted (V-FLT-5). -/
theorem test_witness_reserved :
    refuses (step (acting (.command 0x080000000000000000#72) faulty)) (.reservedCommand 0x08) = true ∧
    refuses (step (acting (.command 0xFF0000000000000000#72) State.reset)) (.reservedCommand 0xFF) = true := by decide

/-- ResetGivesTheResetValues (V-FLT-2). -/
theorem test_witness_reset :
    holds (step (acting .reset (received 17 3 0x6B 3 0 [7] fc3))) (fun t =>
      t.rxLen == 0 && t.descLoaded == false && t.crc == 0xFFFF && t.bufMem == words [7]) = true := by decide

/-- HostWriteReadsBack, its two clauses where they meet (`BUF_WORDS` = 64). -/
theorem test_witness_hostWrite :
    holds (step (acting (.hostWr 63 9) State.reset)) (fun t => t.bufMem == [(63, 9)]) = true ∧
    faults (step (acting (.hostWr 64 9) State.reset)) .hostAddress = true := by decide

/-- HostReadHasNoSideEffect, its three clauses; the unwritten word is the last one. -/
theorem test_witness_hostRead :
    holds (step (acting (.hostRd 0) (loaded 17 3 0 1 0 [7]))) (fun t => t == loaded 17 3 0 1 0 [7]) = true ∧
    hostReadWord 0 (loaded 17 3 0 1 0 [7]) = .ok 7 ∧
    holds (step (acting (.hostRd 63) State.reset)) (fun t => t == State.reset) = true ∧
    faults (step (acting (.hostRd 64) State.reset)) .hostAddress = true := by decide

/-- HostRegisterReadsHaveNoSideEffect: the plain registers, and `TXBUF` on both sides of `TXLEN`. -/
theorem test_witness_hostRegister :
    holds (step (acting (.readRegister .crc) State.reset)) (fun t => t == State.reset) = true ∧
    hostReadRegister .crc State.reset = .ok 0xFFFF ∧ hostReadRegister .status faulty = .ok 0x280 ∧
    hostReadRegister .txLen { State.reset with txLen := 8 } = .ok 8 ∧ hostReadRegister .rxLen { State.reset with rxLen := 128 } = .ok 128 ∧
    holds (step (acting (.readRegister (.txBuf 127)) { State.reset with txLen := 128 })) (fun t => t.txLen == 128) = true ∧
    faults (step (acting (.readRegister (.txBuf 8)) { State.reset with txLen := 8 })) .hostReadUndefined = true := by decide

/-- HostRegisterReadsHaveNoSideEffect: `RXBUF` on both sides of `RXLEN`, and each descriptor register with and without LOAD_DESC. -/
theorem test_witness_hostRegister2 :
    hostReadRegister (.rxBuf 10) (received 17 3 0x6B 3 0 [] fc3) = .ok 0xAD ∧
    holds (step (acting (.readRegister (.rxBuf 11)) (received 17 3 0x6B 3 0 [] fc3))) (fun t => t.rxLen == 11) = true ∧
    holds (step (acting (.readRegister (.rxBuf 127)) State.reset)) (fun t => t == State.reset) = true ∧
    holds (step (acting (.readRegister .dBase) (loaded 17 3 0 1 0 []))) (fun t => t.descLoaded) = true ∧
    ∀ p ∈ [(HostRegister.dSlave, 17#32), (.dFunc, 3#32), (.dAddr, 0x6B#32), (.dCount, 61#32), (.dBase, 5#32)],
      hostReadRegister p.1 (loaded 17 3 0x6B 61 5 []) = .ok p.2 ∧
      faults (step (acting (.readRegister p.1) State.reset)) .hostReadUndefined = true := by decide

/-- LoadDescWritesTheDescriptor, CrcInitLoadsTheStartValue, CrcByteFoldsOneByte (with `CRC` = 0), RxClearEmptiesTheBuffer. -/
theorem test_witness_unfaulted :
    State.reset.faulted = false ∧ { State.reset with crc := 0#16 }.faulted = false := by decide

/-- LoadDescWritesTheDescriptor, its illegal descriptor (V-DSC-4). -/
theorem test_witness_illegalDesc :
    (loaded 250 5 0 0 0 []).faulted = false ∧ (loaded 250 5 0 0 0 []).descLoaded = true ∧ validDesc 250 5 0 = false := by decide

/-- ZeroByteChangesEveryNonZeroCrc: its hypotheses hold at 0xC001, and it fails there (worked out from R94). -/
theorem test_witness_zeroByte :
    { State.reset with crc := 0xC001#16 }.faulted = false ∧ (0xC001#16) ≠ 0#16 ∧
    holds (exec (.crcByte 0#8) { State.reset with crc := 0xC001 }) (fun t => t.crc == 0xC001) = true := by decide

/-- RxPushAppendsOrOverflows, its clause on VALIDATE (V-VAL-30). -/
theorem test_witness_overflowVerdict :
    holds (exec .validate ((received 17 3 0x6B 3 0 [] fc3).setRxOvf 1)) (fun t => t.result == 3 && !t.faulted) = true := by decide

/-- ValidDescriptorsAreTheSpecs, at every limit (V-DSC-7, V-DSC-8). -/
theorem test_witness_validDesc :
    validDesc 247 3 61 = true ∧ validDesc 0 16 59 = true ∧ validDesc 17 15 952 = true ∧ validDesc 248 3 1 = false ∧
    validDesc 0 3 1 = false ∧ validDesc 17 3 0 = false ∧ validDesc 17 3 62 = false ∧ validDesc 17 16 60 = false ∧
    validDesc 17 15 953 = false ∧ validDesc 17 6 1 = false := by decide +kernel

/-- IncrementalCrcIsCrc16 (V-CRC-10). -/
theorem test_witness_crcBytes :
    ({ State.reset with hostActions := crcBytesActions [0x31] }).faulted = false ∧
    crc16 [0x31, 0x32, 0x33, 0x34, 0x35, 0x36, 0x37, 0x38, 0x39] = 0x4B37 ∧
    ({ State.reset with hostActions := crcBytesActions [0x31] }).hostActions = crcBytesActions [0x31] ++ [] := by decide

/-- SingleBitErrorsAreDetected, the last bit of the longest frame. -/
theorem test_witness_singleBit :
    (List.replicate 126 (0#8)).length ≤ 126 ∧ 127 < (List.replicate 126 (0#8)).length + 2 ∧ 7 < 8 := by decide +kernel

/-- BuildOfAReadEmitsTheRequest, each function. -/
theorem test_witness_buildOfARead :
    ∀ f ∈ [1#8, 2#8, 3#8, 4#8], (loaded 17 f 0 61 0 []).faulted = false ∧ (loaded 17 f 0 61 0 []).descLoaded = true ∧
      validDesc 17 f 61 = true ∧ (f = 1#8 ∨ f = 2#8 ∨ f = 3#8 ∨ f = 4#8) := by decide

/-- BuildOfCoilsPacksThePoints, each layout; the second at the largest count and the end of `BUFMEM`. -/
theorem test_witness_buildOfCoils :
    BuildReady (loaded 17 15 0x13 10 0 coils) ∧ BuildReady (packed (loaded 17 15 0 952 4 (List.replicate 64 1))) := by decide +kernel

/-- BuildOfRegistersPacksTheWords, the largest count at the end of `BUFMEM`, and a broadcast. -/
theorem test_witness_buildOfRegisters :
    BuildReady (loaded 17 16 0 59 5 (List.replicate 64 0)) ∧ BuildReady (loaded 0 16 1 2 0 [0x0A, 0x102]) := by decide +kernel

/-- BuildFaultsInPriorityOrder, the branches after `NO_DESC` (V-DSC-7, V-DSC-9, V-BLD-18, V-DSC-10), and a broadcast up to the last word. -/
theorem test_witness_buildFaults :
    holds (exec .build (loaded 17 6 0 1 0 [])) (fun t => t.status == 0x280) = true ∧
    holds (exec .build (loaded 17 16 0 2 63 [])) (fun t => t.status == 0x380) = true ∧
    faults (exec .build (loaded 17 16 1 2 0 [0x0A])) .uninitBuf = true ∧
    holds (exec .build (loaded 17 3 0 2 63 [])) (fun t =>
      !t.faulted && t.result == 0 && t.expectRsp == 1 && t.txBytes.getD 1 0 == 3 && crcOk t.txBytes) = true ∧
    holds (exec .build (loaded 0 16 1 2 62 (List.replicate 64 0))) (fun t => !t.faulted && t.expectRsp == 0 && crcOk t.txBytes) = true := by decide +kernel

/-- BuildFrame, BuiltFramesFitTheBuffer, BuildRunsItsRequestForm and OnlyBuildWritesTheTransmitBuffer. -/
theorem test_witness_buildFrame :
    ∃ t, exec .build (loaded 17 16 1 2 0 [0x0A, 0x102]) = .next t ∧ (!t.faulted && t.txLen == 13) = true := holds_next (by decide)

/-- BuildDependsOnDescriptorAndBufferAlone, two states that differ in `CRC`. -/
theorem test_witness_buildDepends :
    holds (exec .build (loaded 17 3 0 1 0 [])) (fun t => !t.faulted) = true ∧
    holds (exec .build { loaded 17 3 0 1 0 [] with crc := 0 }) (fun t => !t.faulted) = true := by decide

/-- RequestFormsEmitTheirFrame, each form; the ten coils end with `BUFMEM`. -/
theorem test_witness_requestForms :
    ∀ p ∈ [(Instr.reqReadCoilStatus 0x11 0x0013 37 0x840E, [0x11#8, 0x01, 0x00, 0x13, 0x00, 0x25, 0x0E, 0x84]),
      (.reqReadInputStatus 0x11 0x00C4 22 0xA9BA, [0x11, 0x02, 0x00, 0xC4, 0x00, 0x16, 0xBA, 0xA9]),
      (.reqReadHoldingRegisters 0x11 0x006B 3 0x8776, [0x11, 0x03, 0x00, 0x6B, 0x00, 0x03, 0x76, 0x87]),
      (.reqReadInputRegisters 0x11 0x0008 1 0x98B2, [0x11, 0x04, 0x00, 0x08, 0x00, 0x01, 0xB2, 0x98]),
      (.reqForceMultipleCoils 0x11 0x0013 10 2 [0xCD, 0x01] 0x0BBF,
        [0x11, 0x0F, 0x00, 0x13, 0x00, 0x0A, 0x02, 0xCD, 0x01, 0xBF, 0x0B]),
      (.reqPresetMultipleRegisters 0 1 2 4 [0x00, 0x0A, 0x01, 0x02] 0xCC96,
        [0x00, 0x10, 0x00, 0x01, 0x00, 0x02, 0x04, 0x00, 0x0A, 0x01, 0x02, 0x96, 0xCC])],
      encode p.1 = .request p.2 ∧ p.1.wellFormed = true ∧ (loaded 0 0 0 0 54 []).faulted = false ∧
      (loaded 0 0 0 0 54 []).descLoaded = true ∧
      (p.2.getD 1 0 = 15#8 ∨ p.2.getD 1 0 = 16#8 →
        54 + bufferWords .onePerWord (p.2.getD 1 0) (p.2.getD 4 0 ++ p.2.getD 5 0 : BitVec 16).toNat ≤ 64) := by decide

/-- RxPushAppendsOrOverflows, where its two cases meet. -/
theorem test_witness_rxPush :
    { State.reset with rxLen := 127#8 }.faulted = false ∧ { State.reset with rxLen := 128#8 }.faulted = false := by decide

/-- ReceivedFramesAccumulate. -/
theorem test_witness_rxFrame :
    ({ State.reset with hostActions := rxFrameActions fc3 }).faulted = false ∧
    ({ State.reset with hostActions := rxFrameActions fc3 }).hostActions = rxFrameActions fc3 ++ [] := by decide

/-- ValidateFaultsInPriorityOrder, each branch (V-DSC-6, V-VAL-32, V-VAL-34), and the last address in range. -/
theorem test_witness_validateFaults :
    holds (exec .validate State.reset) (fun t => t.status == 0x180) = true ∧
    holds (exec .validate (loaded 17 5 0 1 0 [])) (fun t => t.status == 0x280) = true ∧
    holds (exec .validate (loaded 0 16 1 2 0 [])) (fun t => t.status == 0x280) = true ∧
    holds (exec .validate (loaded 17 3 0x6B 3 62 [])) (fun t => t.status == 0x380) = true ∧
    holds (exec .validate (loaded 17 3 0x6B 3 61 [])) (fun t => t.status == 4 && !t.faulted) = true := by decide

/-- ValidateVerdictFollowsThePriority (V-VAL-35 for a write). -/
theorem test_witness_validateReady :
    ValidateReady (received 17 3 0x6B 3 61 [] fc3) ∧ ValidateReady (received 247 1 0 61 3 [] []) ∧
    ValidateReady (received 17 15 0x13 10 60 [] [0x11, 0x0F, 0x00, 0x13, 0x00, 0x0A, 0x26, 0x99]) := by decide

/-- ValidateVerdictFollowsThePriority, its branches (V-VAL-1, 23, 22, 31, 26, 25, 14, and 12 for a bad CRC). -/
theorem test_witness_verdicts :
    ∀ p ∈ [(fc3, 1#3), ([], 4#3), ([0x11], 4#3), ([0x11, 0x04, 0x02, 0x00, 0x0A, 0xF8, 0xF4], 3#3), ([0x12, 0x03, 0x06], 4#3),
      (fc3 ++ [0x00], 3#3), ([0x11, 0x83, 0x02, 0xC1], 4#3), ([0x11, 0x83, 0x02, 0xC1, 0x34], 2#3),
      ([0x11, 0x03, 0x06, 0xAE, 0x41, 0x56, 0x52, 0x43, 0x40, 0x49, 0xAC], 3#3)],
      holds (exec .validate (received 17 3 0x6B 3 0 [] p.1)) (fun t => t.result == p.2) = true := by decide

/-- ValidateVerdictFollowsThePriority, the exception fields at each class of code (R24, R25). -/
theorem test_witness_verdicts2 :
    ∀ p ∈ [(1#8, 0#2), (2#8, 1#2), (3#8, 2#2), (4#8, 3#2), (0#8, 3#2)],
      holds (exec .validate (received 17 3 0x6B 3 0 [] (crcFrame [0x11, 0x83, p.1])))
        (fun t => t.result == 2 && t.excCode == p.1 && t.excClassField == p.2) = true := by decide

/-- ValidateFrame, ValidateIsIdempotent, PrefixesAreIncomplete and OnlySuccessfulReadsWriteBufmem. -/
theorem test_witness_validateFrame :
    ∃ t, exec .validate (received 17 3 0x6B 3 0 [1, 1, 1, 1] fc3) = .next t ∧ ((t.result == 1 && memGet t.bufMem 0 != some 1)) = true := holds_next (by decide)

/-- PrefixesAreIncomplete, the empty and the longest proper one (V-VAL-38). -/
theorem test_witness_prefixes :
    ValidateReady (received 17 3 0x6B 3 0 [1] fc3) ∧
    holds (exec .validate (received 17 3 0x6B 3 0 [1] fc3)) (fun t => t.result == 1) = true ∧
    10 < (received 17 3 0x6B 3 0 [1] fc3).rxBytes.length ∧
    ∀ m ∈ [0#8, 1#8, 2#8, 10#8], holds (exec .validate { received 17 3 0x6B 3 0 [1] fc3 with rxLen := m })
      (fun t => t.result == 4 && t.bufMem == words [1]) = true := by decide

/-- ValidateRunsItsResponseForm. -/
theorem test_witness_responseForm :
    encode (.rspReadHoldingRegisters 17 6 [0xAE, 0x41, 0x56, 0x52, 0x43, 0x40] 0xAD49) =
      .response (received 17 3 0x6B 3 0 [] fc3).rxBytes := by decide

/-- PointResponsesAreUnpacked, function 1 (V-VAL-9, one point a word). -/
theorem test_witness_pointsOne :
    ValidateReady (loaded 17 1 0 3 61 []) ∧ (loaded 17 1 0 3 61 []).rxOvf = 0#1 ∧ encode (.rspReadCoilStatus 17 1 [0xFD] 0xC994) = .response [0x11, 0x01, 0x01, 0xFD, 0x94, 0xC9] ∧
    crcOk [0x11, 0x01, 0x01, 0xFD, 0x94, 0xC9] = true ∧ 5 + (3 + 7) / 8 = 6 ∧ (0x01#8).toNat = (3 + 7) / 8 := by decide

/-- PointResponsesAreUnpacked, function 2 (V-VAL-5, `PACKED16`). -/
theorem test_witness_pointsTwo :
    ValidateReady (packed (loaded 17 2 0xC4 22 62 [])) ∧ (packed (loaded 17 2 0xC4 22 62 [])).rxOvf = 0#1 ∧ encode (.rspReadInputStatus 17 3 [0xAC, 0xDB, 0x35] 0x1820) = .response [0x11, 0x02, 0x03, 0xAC, 0xDB, 0x35, 0x20, 0x18] ∧
    crcOk [0x11, 0x02, 0x03, 0xAC, 0xDB, 0x35, 0x20, 0x18] = true ∧ 5 + (22 + 7) / 8 = 8 ∧ (0x03#8).toNat = (22 + 7) / 8 := by decide

/-- RegisterResponsesAreUnpacked, function 3 (V-VAL-1). -/
theorem test_witness_registers :
    fc3.getD 0 0 = 17#8 ∧ fc3.getD 1 0 = 3#8 ∧ (fc3.getD 2 0).toNat = 2 * 3 ∧
    ValidateReady (loaded 17 3 0x6B 3 61 []) ∧ (loaded 17 3 0x6B 3 61 []).rxOvf = 0#1 ∧
    encode (.rspReadHoldingRegisters 17 6 [0xAE, 0x41, 0x56, 0x52, 0x43, 0x40] 0xAD49) = .response fc3 ∧ fc3.length = 5 + 2 * 3 ∧
    crcOk fc3 = true := by decide

/-- RegisterResponsesAreUnpacked, function 4 (V-VAL-7). -/
theorem test_witness_registers4 :
    ValidateReady (loaded 17 4 8 1 63 []) ∧ encode (.rspReadInputRegisters 17 2 [0x00, 0x0A] 0xF4F8) = .response [0x11, 0x04, 0x02, 0x00, 0x0A, 0xF8, 0xF4] ∧
    crcOk [0x11, 0x04, 0x02, 0x00, 0x0A, 0xF8, 0xF4] = true := by decide

/-- ConfirmationsAreJudgedByTheirEcho, a wrong echo and a right one (V-VAL-28, V-VAL-11). -/
theorem test_witness_confirmations :
    ValidateReady (loaded 17 15 0x13 10 60 []) ∧ ValidateReady (loaded 17 16 1 2 0 []) ∧
    encode (.rspForceMultipleCoils 17 0x13 9 0x9866) = .response [0x11, 0x0F, 0x00, 0x13, 0x00, 0x09, 0x66, 0x98] ∧ crcOk [0x11, 0x0F, 0x00, 0x13, 0x00, 0x09, 0x66, 0x98] = true ∧
    encode (.rspPresetMultipleRegisters 17 1 2 0x9812) = .response [0x11, 0x10, 0x00, 0x01, 0x00, 0x02, 0x12, 0x98] ∧
    crcOk [0x11, 0x10, 0x00, 0x01, 0x00, 0x02, 0x12, 0x98] = true := by decide

/-- ExceptionResponsesAreReported, each form and each class of code. -/
theorem test_witness_exceptions :
    ∀ p ∈ [(1#8, Instr.rspExcReadCoilStatus), (2#8, .rspExcReadInputStatus), (3#8, .rspExcReadHoldingRegisters),
      (4#8, .rspExcReadInputRegisters), (15#8, .rspExcForceMultipleCoils), (16#8, .rspExcPresetMultipleRegisters)],
      ValidateReady (loaded 17 p.1 0 1 0 []) ∧ (loaded 17 p.1 0 1 0 []).rxOvf = 0#1 ∧
      ∀ code ∈ [0#8, 1#8, 2#8, 3#8, 4#8, 0xFF#8], encode (p.2 17 code (crc16 [17, p.1 ||| 0x80#8, code])) =
        .response [17, p.1 ||| 0x80#8, code, (crc16 [17, p.1 ||| 0x80#8, code]).extractLsb' 0 8,
          (crc16 [17, p.1 ||| 0x80#8, code]).extractLsb' 8 8] := by decide +kernel

/-- CrcUpdateIsEightShifts, its last bit. -/
theorem test_witness_crcBit : 15 < 16 ∧ (0xA001#16).getLsbD 15 = (0x8005#16).getLsbD 0 := by decide

/-- CoilPackingRoundTrip, the last point of the largest request. -/
theorem test_witness_roundTrip : 951 < 952 ∧ [1#16, 0xFFFF#16].length = 2 := by decide

/-- FaultGateHoldsEveryInstruction and OnlyResetLeavesTheFaultState. -/
theorem test_witness_faulted : faulty.faulted = true ∧ faulty.faultCause = 2#2 := by decide

/-- OnlyBuildAndValidateFailARun, a model fault and a sticky one. -/
theorem test_witness_failedRun :
    (loaded 17 16 1 2 0 [0x0A]).faulted = false ∧ goodEnd (exec .build (loaded 17 16 1 2 0 [0x0A])) = false ∧
    State.reset.faulted = false ∧ goodEnd (exec .validate State.reset) = false := by decide

/-- FaultsArePrecise. -/
theorem test_witness_faultEntered :
    ∃ t, exec .build State.reset = .next t ∧ ((t.faulted && t.faultCause == 1)) = true := holds_next (by decide)

/-- OnlyResetLeavesTheFaultState, both cases (V-FLT-2). -/
theorem test_witness_faultedSteps :
    holds (step (acting .reset faulty)) (fun t => !t.faulted) = true ∧
    holds (step (acting (.hostWr 0 1) faulty)) (fun t => t.status == faulty.status && t.bufMem == words [1]) = true := by decide

/-- OnlyCrcCommandsWriteCrc, OnlyLoadDescWritesTheDescriptor and StatusFieldsHaveTheirWriters. -/
theorem test_witness_crcWritten :
    ∃ t, exec (.crcByte 1) State.reset = .next t ∧ ((t.crc != State.reset.crc)) = true := holds_next (by decide)

/-- OnlyRxCommandsWriteTheReceiveBuffer. -/
theorem test_witness_rxWritten :
    ∃ t, exec (.rxPush 1) State.reset = .next t ∧ ((t.rxBuf != State.reset.rxBuf && t.rxLen != State.reset.rxLen)) = true := holds_next (by decide)

/-- StepKeepsTheInvariant. -/
theorem test_witness_inv : Inv State.reset ∧ Inv (loaded 17 16 0 59 5 (List.replicate 64 0)) ∧ Inv faulty := by decide +kernel

/-- StepKeepsTheInvariant and ParametersAreFixed, a step that is taken. -/
theorem test_witness_invStep :
    ∃ t, step (acting (.command 0x040000000000000000#72) (loaded 17 16 1 2 0 [0x0A, 0x102])) = .next t ∧ ((t.txLen == 13)) = true := holds_next (by decide)

end Sys2Proof.Tests
end

/-! Lemmas and proofs of the statements about the state (spec/10_state.md): the host's moves, who writes what, and the
invariant. Everything about an instruction follows from the inversion `exec_effect`, everything about a step from
`step_next`. -/
namespace Sys2Proof.Machine

/-! ### The step, one host action at a time -/

/-- The step performs the host's next action on the state without it (R54, R185). -/
theorem step_of_hostActions {s : State} {a : HostAction} {rest : List HostAction} (h : s.hostActions = a :: rest) :
    step s = performAction a { s with hostActions := rest } := by
  simp [step, hostStep, h]

/-- A host write in range. -/
theorem hostWrite_of_lt {a : Word} (v : Word) {s : State} (h : a.toNat < s.cfg.bufWords) :
    hostWrite a v s = .next { s with bufMem := memSet s.bufMem a.toNat v } := if_pos h

/-- A host write outside `BUFMEM` (R42). -/
theorem hostWrite_of_ge {a : Word} (v : Word) {s : State} (h : s.cfg.bufWords ≤ a.toNat) :
    hostWrite a v s = .fault .hostAddress := if_neg (Nat.not_lt.2 h)

/-- A host read outside `BUFMEM` (R42). -/
theorem hostReadWord_of_ge {a : Word} {s : State} (h : s.cfg.bufWords ≤ a.toNat) :
    hostReadWord a s = .error .hostAddress := if_neg (Nat.not_lt.2 h)

/-- Whether a register read goes on does not depend on the actions left, which only number its free values. -/
theorem afterRead_hostReadRegister_hostActions (r : HostRegister) (s u : State) (rest : List HostAction) :
    afterRead (hostReadRegister r { s with hostActions := rest }) u = afterRead (hostReadRegister r s) u := by
  cases r <;> rfl

/-- A register read as a step. -/
theorem step_readRegister {s : State} {r : HostRegister} {rest : List HostAction}
    (h : s.hostActions = .readRegister r :: rest) :
    step s = afterRead (hostReadRegister r s) { s with hostActions := rest } := by
  rw [step_of_hostActions h, performAction, afterRead_hostReadRegister_hostActions]

/-- A host read in range as a step: the block stays as it is. -/
theorem step_hostRd_of_lt {s : State} {a : Word} {rest : List HostAction} (h : s.hostActions = .hostRd a :: rest)
    (ha : a.toNat < s.cfg.bufWords) : step s = .next { s with hostActions := rest } := by
  obtain ⟨w, hw⟩ := hostReadWord_ok_iff (s := { s with hostActions := rest }).2 ha
  rw [step_of_hostActions h, performAction, hw, afterRead_ok]

/-! ### The instructions that fail or write by a frame -/

/-- BUILD and the request forms are among BUILD, VALIDATE and the frame forms. -/
theorem build_validate_or_frame_of_request {i : Instr} (hi : i = .build ∨ ∃ fr, encode i = .request fr) :
    i = .build ∨ i = .validate ∨ ∀ w, encode i ≠ .command w := by
  rcases hi with hi | ⟨fr, he⟩
  · exact .inl hi
  · exact .inr (.inr (by simp [he]))

/-- VALIDATE and the response forms are among BUILD, VALIDATE and the frame forms. -/
theorem build_validate_or_frame_of_response {i : Instr} (hi : i = .validate ∨ ∃ fr, encode i = .response fr) :
    i = .build ∨ i = .validate ∨ ∀ w, encode i ≠ .command w := by
  rcases hi with hi | ⟨fr, he⟩
  · exact .inr (.inl hi)
  · exact .inr (.inr (by simp [he]))

/-! ### Status fields -/

theorem setRxOvf_reservedKept (b : BitVec 1) (s : State) : ReservedKept s (s.setRxOvf b) :=
  ⟨field_withField_disjoint _ _ _ _ _ (by decide), field_withField_disjoint _ _ _ _ _ (by decide)⟩

theorem setResult_reservedKept (v : Verdict) (s : State) : ReservedKept s (s.setResult v) :=
  ⟨field_withField_disjoint _ _ _ _ _ (by decide), field_withField_disjoint _ _ _ _ _ (by decide)⟩

theorem ReservedKept.trans {s t u : State} (h₁ : ReservedKept s t) (h₂ : ReservedKept t u) : ReservedKept s u :=
  ⟨h₂.1.trans h₁.1, h₂.2.trans h₁.2⟩

/-! ### The form of `STATUS` -/

/-- The code of every verdict is legal (R20). -/
theorem verdictCode_toNat_le (v : Verdict) : (verdictCode v).toNat ≤ 4 := by
  cases v <;> decide

/-- No other verdict has the code of an exception (R20). -/
theorem verdictCode_eq_exception {v : Verdict} : verdictCode v = verdictCode .exception ↔ v = .exception := by
  cases v <;> decide

/-- A cause that is recorded is not recorded as 0 (R30, R153). -/
theorem causeCode_ne_zero {c : FaultCause} (hc : c ≠ .uninitBuf) : causeCode c ≠ 0#2 := by
  revert hc
  cases c <;> decide

theorem enterFault_statusWf {c : FaultCause} {s : State} (hc : c ≠ .uninitBuf) (h : StatusWf s) :
    StatusWf (enterFault c s) := by
  obtain ⟨h10, h24, hres, -, hexc⟩ := h
  obtain ⟨k10, k24⟩ := enterFault_reservedKept c s
  refine ⟨k10.trans h10, k24.trans h24, ?_, ?_, ?_⟩
  · simpa using hres
  · simp [causeCode_ne_zero hc]
  · simpa using hexc

theorem emitRequest_statusWf (fr : List Byte) (slave : Byte) {s : State} (h : StatusWf s) :
    StatusWf (emitRequest fr slave s) := by
  obtain ⟨h10, h24, -, hfault, -⟩ := h
  obtain ⟨k10, k24⟩ := emitRequest_reservedKept fr slave s
  refine ⟨k10.trans h10, k24.trans h24, ?_, ?_, ?_⟩
  · simpa using verdictCode_toNat_le .none
  · simpa using hfault
  · simp [verdictCode_eq_exception]

theorem recordVerdict_statusWf (v : Verdict) (r : List Byte) {s : State} (h : StatusWf s) :
    StatusWf (recordVerdict v r s) := by
  obtain ⟨h10, h24, -, hfault, -⟩ := h
  obtain ⟨k10, k24⟩ := recordVerdict_reservedKept v r s
  refine ⟨k10.trans h10, k24.trans h24, ?_, ?_, ?_⟩
  · simpa using verdictCode_toNat_le v
  · simpa using hfault
  · rw [recordVerdict_result, verdictCode_eq_exception]
    rintro rfl
    simp

theorem setRxOvf_statusWf (b : BitVec 1) {s : State} (h : StatusWf s) : StatusWf (s.setRxOvf b) := by
  obtain ⟨h10, h24, hres, hfault, hexc⟩ := h
  obtain ⟨k10, k24⟩ := setRxOvf_reservedKept b s
  refine ⟨k10.trans h10, k24.trans h24, ?_, ?_, ?_⟩
  · simpa using hres
  · simpa using hfault
  · simpa using hexc

theorem setResult_none_statusWf {s : State} (h : StatusWf s) : StatusWf (s.setResult .none) := by
  obtain ⟨h10, h24, -, hfault, -⟩ := h
  obtain ⟨k10, k24⟩ := setResult_reservedKept .none s
  refine ⟨k10.trans h10, k24.trans h24, ?_, ?_, ?_⟩
  · simpa using verdictCode_toNat_le .none
  · simpa using hfault
  · simp [verdictCode_eq_exception]

/-! ### Built frames -/

/-- The CRC of a frame checks (R98, R99). -/
theorem crcOk_crcFrame (body : List Byte) : crcOk (crcFrame body) = true := by
  have htake : (crcFrame body).take ((crcFrame body).length - 2) = body := by simp [crcFrame, crcBytes]
  have hfield : crcField (crcFrame body) = crc16 body := by simp [crcField, crcFrame, crcBytes]
  rw [crcOk, htake, hfield, beq_self_eq_true]

/-- `TXLEN` after BUILD, for a frame that fits (R27, R105). -/
theorem emitRequest_txLen_toNat {fr : List Byte} (slave : Byte) (s : State) (h : fr.length ≤ 128) :
    (emitRequest fr slave s).txLen.toNat = fr.length := by
  rw [emitRequest_txLen, BitVec.toNat_ofNat, Nat.mod_eq_of_lt (by omega)]

/-- A frame with a body of at most 126 bytes fits `TXBUF`, and it is not empty (R27, R70). -/
theorem emitRequest_lengthsWf {body : List Byte} (slave : Byte) {s : State} (h126 : body.length ≤ 126)
    (h : LengthsWf s) : LengthsWf (emitRequest (crcFrame body) slave s) := by
  obtain ⟨-, hrx, hovf, -⟩ := h
  have hlen : (emitRequest (crcFrame body) slave s).txLen.toNat = body.length + 2 := by
    rw [emitRequest_txLen_toNat _ _ (by simpa), crcFrame_length]
  refine ⟨by rw [hlen, maxFrame]; omega, hrx, by simpa using hovf, fun _ h0 => ?_⟩
  rw [h0] at hlen
  simp at hlen

/-- The bytes below `TXLEN` are the emitted frame, whose CRC checks (R98, R105). -/
theorem emitRequest_txFrameGood {body : List Byte} (slave : Byte) {s : State} (h6 : 6 ≤ body.length)
    (h126 : body.length ≤ 126) : TxFrameGood (emitRequest (crcFrame body) slave s) := by
  have hfit : (crcFrame body).length ≤ 128 := by simpa
  right
  rw [emitRequest_txLen_toNat _ _ hfit, emitRequest_txBytes _ _ _ hfit, crcFrame_length]
  exact ⟨by omega, crcOk_crcFrame body⟩

/-! ### Verdicts write `STATUS` alone -/

theorem recordVerdict_lengthsWf (v : Verdict) (r : List Byte) {s : State} (h : LengthsWf s) :
    LengthsWf (recordVerdict v r s) := by
  simpa [LengthsWf] using h

theorem recordVerdict_txFrameGood (v : Verdict) (r : List Byte) {s : State} (h : TxFrameGood s) :
    TxFrameGood (recordVerdict v r s) := by
  simpa [TxFrameGood, State.txBytes] using h

/-! ### The invariant -/

/-- The reset values of `STATUS` and of the two lengths (R36) establish all of the invariant but the form of `BUFMEM`. -/
theorem inv_of_reset_registers {s : State} (hmem : Memory.wf s.cfg.bufWords s.bufMem = true) (hst : s.status = 0#32)
    (htx : s.txLen = 0#8) (hrx : s.rxLen = 0#8) : Inv s := by
  have hstatus : StatusWf s := by
    simp [StatusWf, hst, State.result, State.faultFlag, State.faultCause, State.excClassField, State.excCode, field,
      verdictCode]
  have hlengths : LengthsWf s := by
    simp [LengthsWf, hst, htx, hrx, State.rxOvf, State.expectRsp, field]
  exact ⟨hmem, hstatus, hlengths, .inl htx⟩

/-- The data words of a read that passed VALIDATE's checks lie in `BUFMEM` (R86, R87). -/
theorem responseWords_fit {s : State} (r : List Byte) (hc : validateCheck s = .ok ()) (hr : isRead s.dFunc = true) :
    s.dBase.toNat + (responseWords s.cfg.coilLayout s.dFunc r s.dCount.toNat).length ≤ s.cfg.bufWords := by
  obtain ⟨-, -, -, hrange⟩ := validateCheck_ok.1 hc
  rw [responseWords_length _ _ _ _ hr]
  exact (bufferInRange_iff _ _ _).1 (hrange hr)

/-- No instruction breaks the invariant. -/
theorem Effect.inv {i : Instr} {s t : State} (e : Effect i s t) (h : Inv s) : Inv t := by
  have ⟨hmem, hst, hlen, htx⟩ := h
  have ⟨htxLen, hrxLen, hovf, hexp⟩ := hlen
  cases e with
  | gated | nop | crcInit | crcByte | loadDesc => exact h
  | fault _ c hc => exact ⟨hmem, enterFault_statusWf hc hst, by simpa [LengthsWf] using hlen, htx⟩
  | rxClear =>
    have hexp' : ({ s with rxLen := 0 } : State).expectRsp = 1#1 → s.txLen ≠ 0#8 := hexp
    exact ⟨hmem, setResult_none_statusWf (setRxOvf_statusWf 0 hst),
      ⟨htxLen, by simp, by simp, by simpa using hexp'⟩, htx⟩
  | rxPush _ b _ hl =>
    have hlen' : (s.rxLen + 1).toNat = s.rxLen.toNat + 1 := by
      rw [maxFrame] at hl
      simp [BitVec.toNat_add]
      omega
    exact ⟨hmem, hst, ⟨htxLen, hlen'.trans_le hl, fun h1 => absurd (hovf h1) hl.ne, hexp⟩, htx⟩
  | rxOverflow _ b _ hl =>
    exact ⟨hmem, setRxOvf_statusWf 1 hst, ⟨htxLen, hrxLen, fun _ => le_antisymm hrxLen hl, by simpa using hexp⟩, htx⟩
  | request _ _ body slave h6 h126 =>
    exact ⟨hmem, emitRequest_statusWf _ _ hst, emitRequest_lengthsWf _ h126 hlen,
      emitRequest_txFrameGood _ h6 h126⟩
  | stored _ _ r hc _ hr =>
    exact ⟨by simpa using memSetAll_wf _ hmem (responseWords_fit r hc hr), recordVerdict_statusWf .success r hst,
      recordVerdict_lengthsWf .success r hlen, recordVerdict_txFrameGood .success r htx⟩
  | judged _ _ r =>
    exact ⟨by simpa using hmem, recordVerdict_statusWf _ r hst, recordVerdict_lengthsWf _ r hlen,
      recordVerdict_txFrameGood _ r htx⟩

/-- A write of the host's in range keeps the invariant (R33). -/
theorem inv_of_bufMem_memSet {s : State} (k : Nat) (v : Word) (hk : k < s.cfg.bufWords) (h : Inv s) :
    Inv { s with bufMem := memSet s.bufMem k v } :=
  ⟨memSet_wf v h.1 hk, h.2⟩

/-- RESET keeps the invariant: it leaves `BUFMEM` as it is (R171, R172). -/
theorem hostReset_inv {s : State} (h : Inv s) : Inv (hostReset s) :=
  inv_of_reset_registers h.1 rfl rfl rfl

/-! ### What no instruction writes -/

/-- The fault gate (R154): a faulted block stays as it is. -/
theorem Effect.eq_of_faulted {i : Instr} {s t : State} (e : Effect i s t) (hs : s.faulted = true) : t = s := by
  cases e with
  | gated => rfl
  | _ => simp_all

/-- No instruction writes the parameters (R38). -/
theorem Effect.cfg_eq {i : Instr} {s t : State} (e : Effect i s t) : t.cfg = s.cfg := by
  cases e with
  | judged => exact recordVerdict_cfg _ _ _
  | _ => rfl

/-! ### Who writes the fields of `STATUS` -/

/-- Between `s` and `t` instruction `i` has written only the fields of `STATUS` that R19 lets it write. -/
def WritesOnlyItsStatusFields (i : Instr) (s t : State) : Prop :=
  (t.result ≠ s.result → i = .build ∨ i = .validate ∨ i = .rxClear ∨ ∀ w, encode i ≠ .command w) ∧
  (t.expectRsp ≠ s.expectRsp → i = .build ∨ ∃ fr, encode i = .request fr) ∧
  (t.excClassField ≠ s.excClassField ∨ t.excCode ≠ s.excCode → i = .build ∨ i = .validate ∨ ∀ w, encode i ≠ .command w) ∧
  (t.rxOvf ≠ s.rxOvf → i = .rxClear ∨ ∃ b, i = .rxPush b) ∧
  (¬ FaultFieldsKept s t → i = .build ∨ i = .validate ∨ ∀ w, encode i ≠ .command w) ∧
  ReservedKept s t

/-- Only the status word of the state after matters. -/
theorem WritesOnlyItsStatusFields.congr {i : Instr} {s t u : State} (h : WritesOnlyItsStatusFields i s u)
    (htu : t.status = u.status) : WritesOnlyItsStatusFields i s t := by
  simpa only [WritesOnlyItsStatusFields, FaultFieldsKept, ReservedKept, State.result, State.expectRsp,
    State.excClassField, State.excCode, State.rxOvf, State.faultFlag, State.faultCause, htu] using h

section
variable {i : Instr}

theorem writesOnlyItsStatusFields_self (i : Instr) (s : State) : WritesOnlyItsStatusFields i s s := by
  simp [WritesOnlyItsStatusFields, FaultFieldsKept, ReservedKept]

theorem enterFault_writesOnlyItsStatusFields (c : FaultCause) (s : State)
    (hi : i = .build ∨ i = .validate ∨ ∀ w, encode i ≠ .command w) : WritesOnlyItsStatusFields i s (enterFault c s) :=
  ⟨by simp, by simp, by simp, by simp, fun _ => hi, enterFault_reservedKept c s⟩

theorem rxClear_writesOnlyItsStatusFields (s : State) (hi : i = .rxClear) :
    WritesOnlyItsStatusFields i s ((s.setRxOvf 0).setResult .none) :=
  ⟨by simp [hi], by simp, by simp, by simp [hi], by simp [FaultFieldsKept],
    (setRxOvf_reservedKept 0 s).trans (setResult_reservedKept .none _)⟩

theorem rxOverflow_writesOnlyItsStatusFields {b : Byte} (s : State) (hi : i = .rxPush b) :
    WritesOnlyItsStatusFields i s (s.setRxOvf 1) :=
  ⟨by simp, by simp, by simp, by simp [hi], by simp [FaultFieldsKept], setRxOvf_reservedKept 1 s⟩

theorem emitRequest_writesOnlyItsStatusFields (fr : List Byte) (slave : Byte) (s : State)
    (hi : i = .build ∨ ∃ fr, encode i = .request fr) : WritesOnlyItsStatusFields i s (emitRequest fr slave s) :=
  have hw := build_validate_or_frame_of_request hi
  ⟨fun _ => hw.imp_right (Or.imp_right .inr), fun _ => hi, fun _ => hw, by simp, by simp [FaultFieldsKept],
    emitRequest_reservedKept fr slave s⟩

theorem recordVerdict_writesOnlyItsStatusFields (v : Verdict) (r : List Byte) (s : State)
    (hi : i = .validate ∨ ∃ fr, encode i = .response fr) : WritesOnlyItsStatusFields i s (recordVerdict v r s) :=
  have hw := build_validate_or_frame_of_response hi
  ⟨fun _ => hw.imp_right (Or.imp_right .inr), by simp, fun _ => hw, by simp, by simp [FaultFieldsKept],
    recordVerdict_reservedKept v r s⟩

end

end Sys2Proof.Machine

section
open Sys2Proof Sys2Proof.Machine

/-- Settles O57: by cases on the host's action; a command keeps the invariant because every effect of an instruction does. -/
theorem stepKeepsTheInvariant : Obligations.StepKeepsTheInvariant := by
  intro s t hs h
  rcases step_next h with ⟨-, rfl⟩ | ⟨a, rest, -, hcase⟩
  · exact hs
  · rcases hcase with ⟨w, i, -, -, hexec⟩ | ⟨k, v, -, hk, rfl⟩ | ⟨-, rfl⟩ | ⟨-, rfl⟩
    · exact (exec_effect hexec).inv hs
    · exact inv_of_bufMem_memSet k.toNat v hk hs
    · exact hs
    · exact hostReset_inv (s := { s with hostActions := rest }) hs

/-- Settles O8, with the memory's law of a read after a write. -/
theorem hostWriteReadsBack : Obligations.HostWriteReadsBack := by
  intro s a v rest h
  rw [step_of_hostActions h, performAction]
  refine ⟨fun ha => ?_, fun ha => hostWrite_of_ge v ha⟩
  refine ⟨_, hostWrite_of_lt v ha, rfl, memGet_memSet_same _ _ _, ?_, fun b hb => memGet_memSet_other _ v hb⟩
  exact hostReadWord_written ha (memGet_memSet_same _ _ _)

/-- Settles O48: a command does nothing in the fault state, and the host's other moves do not write `STATUS`. -/
theorem onlyResetLeavesTheFaultState : Obligations.OnlyResetLeavesTheFaultState := by
  intro s t hs h
  rcases step_next h with ⟨-, rfl⟩ | ⟨a, rest, ha, hcase⟩
  · exact .inr ⟨hs, rfl⟩
  · rcases hcase with ⟨w, i, -, -, hexec⟩ | ⟨k, v, -, -, rfl⟩ | ⟨-, rfl⟩ | ⟨rfl, -⟩
    · obtain rfl := (exec_effect hexec).eq_of_faulted hs
      exact .inr ⟨hs, rfl⟩
    · exact .inr ⟨hs, rfl⟩
    · exact .inr ⟨hs, rfl⟩
    · exact .inl ⟨rest, ha⟩

/-- Settles O49: every effect but those two leaves `CRC` as it is. -/
theorem onlyCrcCommandsWriteCrc : Obligations.OnlyCrcCommandsWriteCrc := by
  intro i s t h hne
  cases exec_effect h with
  | crcInit _ hi => exact .inl hi
  | crcByte _ b hi => exact .inr ⟨b, hi⟩
  | judged => exact absurd (recordVerdict_crc _ _ _) hne
  | _ => exact absurd rfl hne

/-- Settles O50: every effect but that of LOAD_DESC leaves the descriptor as it is. -/
theorem onlyLoadDescWritesTheDescriptor : Obligations.OnlyLoadDescWritesTheDescriptor := by
  intro i s t h
  cases exec_effect h with
  | loadDesc _ slave func addr count base hi => exact .inl ⟨slave, func, addr, count, base, hi⟩
  | judged => simp
  | _ => exact .inr ⟨rfl, rfl, rfl, rfl, rfl, rfl⟩

/-- Settles O51: every effect but an emitted request leaves `TXBUF` and `TXLEN` as they are. -/
theorem onlyBuildWritesTheTransmitBuffer : Obligations.OnlyBuildWritesTheTransmitBuffer := by
  intro i s t h
  cases exec_effect h with
  | request _ hi => exact hi.imp_right .inl
  | judged => simp
  | _ => exact .inr (.inr ⟨rfl, rfl⟩)

/-- Settles O52: every effect but those of RX_PUSH and RX_CLEAR leaves `RXBUF` and `RXLEN` as they are. -/
theorem onlyRxCommandsWriteTheReceiveBuffer : Obligations.OnlyRxCommandsWriteTheReceiveBuffer := by
  intro i s t h
  cases exec_effect h with
  | rxClear _ hi => exact ⟨fun hne => absurd rfl hne, fun _ => .inl hi⟩
  | rxPush _ b hi => exact ⟨fun _ => ⟨b, hi⟩, fun _ => .inr ⟨b, hi⟩⟩
  | judged => simp
  | _ => exact ⟨fun hne => absurd rfl hne, fun hne => absurd rfl hne⟩

/-- Settles O53: `BUFMEM` differs only after a stored read, whose verdict and function VALIDATE has checked. -/
theorem onlySuccessfulReadsWriteBufmem : Obligations.OnlySuccessfulReadsWriteBufmem := by
  intro i s t a h hne
  cases exec_effect h with
  | stored _ hi r _ _ hr => exact ⟨hi, recordVerdict_result .success r s, (isRead_iff _).1 hr⟩
  | judged => simp at hne
  | _ => exact absurd rfl hne

/-- Settles O54: the table of R19, one row per effect of an instruction. -/
theorem statusFieldsHaveTheirWriters : Obligations.StatusFieldsHaveTheirWriters := by
  intro i s t h
  change WritesOnlyItsStatusFields i s t
  cases exec_effect h with
  | gated | nop | crcInit | crcByte | loadDesc | rxPush => exact (writesOnlyItsStatusFields_self i s).congr rfl
  | fault _ c _ hi => exact enterFault_writesOnlyItsStatusFields c s hi
  | rxClear _ hi => exact (rxClear_writesOnlyItsStatusFields s hi).congr rfl
  | rxOverflow _ b hi => exact rxOverflow_writesOnlyItsStatusFields s hi
  | request _ hi body slave => exact emitRequest_writesOnlyItsStatusFields _ slave s hi
  | stored _ hi r => exact (recordVerdict_writesOnlyItsStatusFields .success r s hi).congr rfl
  | judged _ hi r => exact recordVerdict_writesOnlyItsStatusFields _ r s hi

/-- Settles O55, by cases on the host's action. -/
theorem parametersAreFixed : Obligations.ParametersAreFixed := by
  intro s t h
  rcases step_next h with ⟨-, rfl⟩ | ⟨a, rest, -, hcase⟩
  · rfl
  · rcases hcase with ⟨w, i, -, -, hexec⟩ | ⟨k, v, -, -, rfl⟩ | ⟨-, rfl⟩ | ⟨-, rfl⟩
    · exact (exec_effect hexec).cfg_eq
    · rfl
    · rfl
    · rfl

/-- Settles O9: each value by its own arm, and whether a read goes on does not depend on the actions left. -/
theorem hostRegisterReadsHaveNoSideEffect : Obligations.HostRegisterReadsHaveNoSideEffect := by
  intro s r rest h
  have hstep := step_readRegister h
  refine ⟨?_, ?_, ?_, ?_, ?_, ?_, ?_, ?_, ?_, ?_, ?_, fun v hv => by rw [hstep, hv, afterRead_ok],
    fun f hf => by rw [hstep, hf, afterRead_error]⟩
  case refine_5 =>
    rintro i rfl
    rfl
  case refine_6 =>
    rintro i rfl
    exact ⟨_, rfl, fun hi => if_pos hi⟩
  all_goals
    rintro rfl
    rfl

/-- Settles O10: in range the read answers a word, written or free. -/
theorem hostReadHasNoSideEffect : Obligations.HostReadHasNoSideEffect := by
  intro s a rest h
  refine ⟨fun w ha hw => ⟨hostReadWord_written ha hw, step_hostRd_of_lt h ha⟩, fun ha _ => ?_, fun ha => ?_⟩
  · obtain ⟨w, hw⟩ := hostReadWord_ok_iff.2 ha
    exact ⟨w, hw, step_hostRd_of_lt h ha⟩
  · rw [step_of_hostActions h, performAction, hostReadWord_of_ge (s := { s with hostActions := rest }) ha, afterRead_error]

/-- Settles O56: the reset values establish it. -/
theorem invariantHoldsAtReset : Obligations.InvariantHoldsAtReset :=
  inv_of_reset_registers (reset_bufMem_wf _) rfl rfl rfl

end

/-! Lemmas and proofs of the statements about the word-buffer memory (spec/20_memory.md): VALIDATE run again, and packed
data received back. -/
namespace Sys2Proof.Machine

/-! ### A field written with its own value -/

/-- Writing a field with the value it holds changes nothing. -/
theorem withField_field (w : StatusWord) (lo n : Nat) : withField w lo (field w lo n) = w := by
  apply BitVec.eq_of_getLsbD_eq
  intro i _
  rw [getLsbD_withField]
  split
  · rename_i hin
    simp [field, show i - lo < n by omega, show lo + (i - lo) = i by omega]
  · rfl

theorem State.setResult_eq_self {v : Verdict} {s : State} (h : s.result = verdictCode v) : s.setResult v = s := by
  rw [State.setResult, ← h, State.result, withField_field]

theorem State.setExcCode_eq_self {b : Byte} {s : State} (h : s.excCode = b) : s.setExcCode b = s := by
  rw [State.setExcCode, ← h, State.excCode, withField_field]

theorem State.setExcClass_eq_self {c : BitVec 2} {s : State} (h : s.excClassField = c) : s.setExcClass c = s := by
  rw [State.setExcClass, ← h, State.excClassField, withField_field]

/-- Recording a verdict that `STATUS` holds changes nothing (R24, R25). -/
theorem recordVerdict_eq_self {v : Verdict} {r : List Byte} {s : State} (hres : s.result = verdictCode v)
    (hcode : s.excCode = if v = .exception then r.getD 2 0 else 0)
    (hclass : s.excClassField = if v = .exception then excClass (r.getD 2 0) else 0) : recordVerdict v r s = s := by
  rw [recordVerdict, State.setResult_eq_self hres]
  split_ifs at hcode hclass ⊢
  all_goals rw [State.setExcCode_eq_self hcode, State.setExcClass_eq_self hclass]

/-! ### What VALIDATE leaves behind -/

/-- `BUFMEM` after VALIDATE of received bytes `r` whose checks pass (R125, R142). -/
def judgedMemory (r : List Byte) (s : State) : Memory :=
  if verdict r s = .success ∧ isRead s.dFunc = true then
    memSetAll s.bufMem s.dBase.toNat (responseWords s.cfg.coilLayout s.dFunc r s.dCount.toNat)
  else s.bufMem

/-- The state after VALIDATE of received bytes `r` whose checks pass (R125). -/
def judgedState (r : List Byte) (s : State) : State :=
  { recordVerdict (verdict r s) r s with bufMem := judgedMemory r s }

theorem judgeFrame_eq_judgedState {s : State} (r : List Byte) (hf : s.faulted = false) (hc : validateCheck s = .ok ()) :
    judgeFrame r s = .next (judgedState r s) := by
  rw [judgeFrame_ok r hf hc, judgedState, judgedMemory]
  split
  · rfl
  · rw [← recordVerdict_bufMem (verdict r s) r s]

/-- Everything VALIDATE can leave: a faulted block, or the judged state of one that passed the checks. -/
theorem judgeFrame_next {r : List Byte} {s t : State} (h : judgeFrame r s = .next t) :
    (t.faulted = true ∧ (t = s ∨ ∃ c, t = enterFault c s)) ∨
      (s.faulted = false ∧ validateCheck s = .ok () ∧ t = judgedState r s) := by
  rcases runCommand_next h with ⟨hf, rfl⟩ | ⟨hf, hb⟩ | ⟨-, c, -, -, rfl⟩
  · exact .inl ⟨hf, .inl rfl⟩
  · cases hc : validateCheck s with
    | error c => simp [validateBody, hc] at hb
    | ok u =>
      rw [judgeFrame_eq_judgedState r hf hc] at h
      cases h
      exact .inr ⟨hf, rfl, rfl⟩
  · exact .inl ⟨enterFault_faulted c s, .inr ⟨c, rfl⟩⟩

/-! ### `judgedState` -/

@[simp] theorem judgedState_dSlave (r : List Byte) (s : State) : (judgedState r s).dSlave = s.dSlave :=
  recordVerdict_dSlave (verdict r s) r s
@[simp] theorem judgedState_dFunc (r : List Byte) (s : State) : (judgedState r s).dFunc = s.dFunc :=
  recordVerdict_dFunc (verdict r s) r s
@[simp] theorem judgedState_dAddr (r : List Byte) (s : State) : (judgedState r s).dAddr = s.dAddr :=
  recordVerdict_dAddr (verdict r s) r s
@[simp] theorem judgedState_dCount (r : List Byte) (s : State) : (judgedState r s).dCount = s.dCount :=
  recordVerdict_dCount (verdict r s) r s
@[simp] theorem judgedState_dBase (r : List Byte) (s : State) : (judgedState r s).dBase = s.dBase :=
  recordVerdict_dBase (verdict r s) r s
@[simp] theorem judgedState_descLoaded (r : List Byte) (s : State) : (judgedState r s).descLoaded = s.descLoaded :=
  recordVerdict_descLoaded (verdict r s) r s
@[simp] theorem judgedState_cfg (r : List Byte) (s : State) : (judgedState r s).cfg = s.cfg :=
  recordVerdict_cfg (verdict r s) r s
@[simp] theorem judgedState_rxOvf (r : List Byte) (s : State) : (judgedState r s).rxOvf = s.rxOvf :=
  recordVerdict_rxOvf (verdict r s) r s
@[simp] theorem judgedState_faulted (r : List Byte) (s : State) : (judgedState r s).faulted = s.faulted :=
  recordVerdict_faulted (verdict r s) r s
@[simp] theorem judgedState_rxBytes (r : List Byte) (s : State) : (judgedState r s).rxBytes = s.rxBytes := by
  simp [judgedState, State.rxBytes]

/-- VALIDATE's checks read nothing it writes (R126). -/
@[simp] theorem validateCheck_judgedState (r : List Byte) (s : State) :
    validateCheck (judgedState r s) = validateCheck s := by
  simp [validateCheck, bufferInRange]

/-- VALIDATE's verdict reads nothing it writes (R156). -/
@[simp] theorem verdict_judgedState (r : List Byte) (s : State) : verdict r (judgedState r s) = verdict r s := by
  simp [verdict]

/-! ### VALIDATE run again -/

/-- The verdict stands in `STATUS` already. -/
theorem recordVerdict_judgedState (r : List Byte) (s : State) :
    recordVerdict (verdict r s) r (judgedState r s) = judgedState r s :=
  recordVerdict_eq_self (recordVerdict_result (verdict r s) r s) (recordVerdict_excCode (verdict r s) r s)
    (recordVerdict_excClassField (verdict r s) r s)

/-- The data words stand in `BUFMEM` already. -/
theorem memGet_judgedMemory_judgedState (r : List Byte) (s : State) (a : Nat) :
    memGet (judgedMemory r (judgedState r s)) a = memGet (judgedMemory r s) a := by
  by_cases hv : verdict r s = .success ∧ isRead s.dFunc = true
  · have hmem : (judgedState r s).bufMem =
        memSetAll s.bufMem s.dBase.toNat (responseWords s.cfg.coilLayout s.dFunc r s.dCount.toNat) := if_pos hv
    simp only [judgedMemory, verdict_judgedState, judgedState_dFunc, judgedState_dBase, judgedState_dCount,
      judgedState_cfg, if_pos hv, hmem, memGet_memSetAll]
    split <;> rfl
  · rw [judgedMemory, verdict_judgedState, judgedState_dFunc, if_neg hv]
    rfl

/-- VALIDATE of the same bytes again changes no word's value and nothing else (R143). -/
theorem judgeFrame_again {r : List Byte} {s t : State} (h : judgeFrame r s = .next t) :
    ∃ m, judgeFrame r t = .next { t with bufMem := m } ∧ ∀ a, memGet m a = memGet t.bufMem a := by
  rcases judgeFrame_next h with ⟨ht, -⟩ | ⟨hf, hc, rfl⟩
  · exact ⟨t.bufMem, runCommand_faulted _ ht, fun _ => rfl⟩
  · refine ⟨judgedMemory r (judgedState r s), ?_, memGet_judgedMemory_judgedState r s⟩
    rw [judgeFrame_eq_judgedState r (by simpa using hf) (by simpa using hc), judgedState, verdict_judgedState,
      recordVerdict_judgedState]

/-- VALIDATE leaves the received bytes as they are (R29). -/
theorem judgeFrame_rxBytes {r : List Byte} {s t : State} (h : judgeFrame r s = .next t) : t.rxBytes = s.rxBytes := by
  rcases judgeFrame_next h with ⟨-, rfl | ⟨c, rfl⟩⟩ | ⟨-, -, rfl⟩
  · rfl
  · rfl
  · exact judgedState_rxBytes r s

/-! ### Packed data received back -/

/-- Data byte `j` of a read response (R64). -/
theorem readResponseBytes_getD (slave f byteCount : Byte) {data : List Byte} (crc : Word) {j : Nat}
    (hj : j < data.length) : (readResponseBytes slave f byteCount data crc).getD (3 + j) 0 = data.getD j 0 := by
  have hdata : (data ++ crcBytes crc).getD j 0 = data.getD j 0 := List.getD_append _ _ _ _ hj
  rw [Nat.add_comm 3 j]
  exact hdata

/-- Point `k` of a read response stands in its data (R138). -/
theorem responsePoint_readResponseBytes (slave f byteCount : Byte) {data : List Byte} (crc : Word) {k : Nat}
    (hk : k / 8 < data.length) :
    responsePoint (readResponseBytes slave f byteCount data crc) k = (data.getD (k / 8) 0).getLsbD (k % 8) := by
  rw [responsePoint, readResponseBytes_getD slave f byteCount crc hk]

/-- An unpack of points writes the response's points as the layout holds them (R46, R138). -/
theorem wordsPoint_unpackCoils (layout : CoilLayout) (r : List Byte) {n k : Nat} (hk : k < n) :
    wordsPoint layout (unpackCoils layout r n) k = responsePoint r k := by
  cases layout with
  | onePerWord =>
    rw [wordsPoint, unpackCoils_onePerWord_getD r n k hk]
    cases responsePoint r k <;> rfl
  | packed16 =>
    rw [wordsPoint, unpackCoils_packed16_getD r n (k / 16) (by omega), getLsbD_packedWord _ _ _ _ (by omega),
      Nat.div_add_mod]
    simp [hk]

end Sys2Proof.Machine

section
open Sys2Proof Sys2Proof.Machine

/-- Settles O36: the checks and the verdict read nothing that VALIDATE writes, and what it writes stands there already. -/
theorem validateIsIdempotent : Obligations.ValidateIsIdempotent := by
  intro s t h
  obtain ⟨m, hagain, hm⟩ := judgeFrame_again (r := s.rxBytes) h
  rw [← judgeFrame_rxBytes (r := s.rxBytes) h] at hagain
  exact ⟨{ t with bufMem := m }, hagain, rfl, rfl, hm⟩

/-- Settles O43: a point goes from the words to its bit of the data, and from there to the words. -/
theorem coilPackingRoundTrip : Obligations.CoilPackingRoundTrip := by
  intro layout ws n k slave f byteCount crc hk
  have hbyte : k / 8 < (packCoils layout ws n).length := by
    rw [packCoils_length]
    omega
  rw [wordsPoint_unpackCoils layout _ hk, responsePoint_readResponseBytes slave f byteCount crc hbyte,
    packCoils_bit layout ws n k (by omega)]
  simp [hk]

/-- Settles O44: word by word, its two bytes stand in the data and join to the word again. -/
theorem registerPackingRoundTrip : Obligations.RegisterPackingRoundTrip := by
  intro ws slave f byteCount crc
  apply List.ext_getElem (by simp [unpackWords])
  intro k _ hk
  obtain ⟨hhi, hlo⟩ := packWords_word ws k hk
  have hlen := packWords_length ws
  rw [← List.getD_eq_getElem _ 0, unpackWords_getD _ _ k hk, readResponseBytes_getD slave f byteCount crc (by omega),
    show 4 + 2 * k = 3 + (2 * k + 1) by omega, readResponseBytes_getD slave f byteCount crc (by omega), hhi, hlo,
    joinBytes_hiByte_loByte, List.getD_eq_getElem]

end

/-! Lemmas and proofs of the statements about the two encodings (spec/30_encoding.md): the command word by its opcode, and
the frames by their function byte. -/
namespace Sys2Proof

/-! ### Command words, one opcode at a time (R55, R56) -/

@[simp] theorem decodeCommand_nop (arg : BitVec 64) : decodeCommand (commandWord 0x00#8 arg) = .ok .nop := by
  simp [decodeCommand]

@[simp] theorem decodeCommand_crcInit (arg : BitVec 64) : decodeCommand (commandWord 0x01#8 arg) = .ok .crcInit := by
  simp [decodeCommand]

@[simp] theorem decodeCommand_crcByte (arg : BitVec 64) :
    decodeCommand (commandWord 0x02#8 arg) = .ok (.crcByte (argByte0 arg)) := by
  simp [decodeCommand]

@[simp] theorem decodeCommand_loadDesc (arg : BitVec 64) :
    decodeCommand (commandWord 0x03#8 arg) =
      .ok (.loadDesc (argByte0 arg) (argFunc arg) (argAddr arg) (argCount arg) (argBase arg)) := by
  simp [decodeCommand]

@[simp] theorem decodeCommand_build (arg : BitVec 64) : decodeCommand (commandWord 0x04#8 arg) = .ok .build := by
  simp [decodeCommand]

@[simp] theorem decodeCommand_rxClear (arg : BitVec 64) : decodeCommand (commandWord 0x05#8 arg) = .ok .rxClear := by
  simp [decodeCommand]

@[simp] theorem decodeCommand_rxPush (arg : BitVec 64) :
    decodeCommand (commandWord 0x06#8 arg) = .ok (.rxPush (argByte0 arg)) := by
  simp [decodeCommand]

@[simp] theorem decodeCommand_validate (arg : BitVec 64) : decodeCommand (commandWord 0x07#8 arg) = .ok .validate := by
  simp [decodeCommand]

/-- An opcode 0x08 to 0xFF spells no command (R57). -/
theorem decodeCommand_reserved {w : CommandWord} (h : 0x08 ≤ (opcodeField w).toNat) :
    decodeCommand w = .error (.reservedCommand (opcodeField w)) := by
  unfold decodeCommand
  split
  case h_9 => rfl
  all_goals omega

/-! ### Frame bodies: what follows the function byte -/

/-- A split at the trailing CRC is the frame's rest with that CRC behind it (R60). -/
theorem splitCrc_eq_some_iff {l d : List Byte} {crc : Word} : splitCrc l = some (d, crc) ↔ l = d ++ crcBytes crc := by
  refine ⟨splitCrc_some, ?_⟩
  rintro rfl
  simp [crcBytes]

@[simp] theorem splitCrc_append_crcBytes (d : List Byte) (crc : Word) : splitCrc (d ++ crcBytes crc) = some (d, crc) :=
  splitCrc_eq_some_iff.2 rfl

/-- The fields of a read request spell it and nothing else does (R62). -/
theorem decodeReadRequest_ok_iff {make : Word → Word → Word → Instr} {l : List Byte} {i : Instr} :
    decodeReadRequest make l = .ok i ↔ ∃ addr count crc,
      l = [hiByte addr, loByte addr, hiByte count, loByte count] ++ crcBytes crc ∧ make addr count crc = i := by
  constructor
  · intro h
    unfold decodeReadRequest at h
    split at h
    · cases h
      exact ⟨_, _, _, by simp [crcBytes], rfl⟩
    · cases h
  · rintro ⟨addr, count, crc, rfl, rfl⟩
    simp [decodeReadRequest, crcBytes]

/-- The fields of a write request spell it and nothing else does (R63). -/
theorem decodeWriteRequest_ok_iff {make : Word → Word → Byte → List Byte → Word → Instr} {l : List Byte} {i : Instr} :
    decodeWriteRequest make l = .ok i ↔ ∃ addr count n data crc,
      l = hiByte addr :: loByte addr :: hiByte count :: loByte count :: n :: (data ++ crcBytes crc) ∧
        make addr count n data crc = i := by
  constructor
  · intro h
    unfold decodeWriteRequest at h
    split at h
    · split at h
      · rename_i hsplit
        cases h
        exact ⟨_, _, _, _, _, by simp [splitCrc_some hsplit], rfl⟩
      · cases h
    · cases h
  · rintro ⟨addr, count, n, data, crc, rfl, rfl⟩
    simp [decodeWriteRequest]

/-- The fields of a read response spell it and nothing else does (R64). -/
theorem decodeReadResponse_ok_iff {make : Byte → List Byte → Word → Instr} {l : List Byte} {i : Instr} :
    decodeReadResponse make l = .ok i ↔ ∃ n data crc, l = n :: (data ++ crcBytes crc) ∧ make n data crc = i := by
  constructor
  · intro h
    unfold decodeReadResponse at h
    split at h
    · split at h
      · rename_i hsplit
        cases h
        exact ⟨_, _, _, by rw [splitCrc_some hsplit], rfl⟩
      · cases h
    · cases h
  · rintro ⟨n, data, crc, rfl, rfl⟩
    simp [decodeReadResponse]

/-- The fields of an exception response spell it and nothing else does (R66). -/
theorem decodeExcResponse_ok_iff {make : Byte → Word → Instr} {l : List Byte} {i : Instr} :
    decodeExcResponse make l = .ok i ↔ ∃ code crc, l = code :: crcBytes crc ∧ make code crc = i := by
  constructor
  · intro h
    unfold decodeExcResponse at h
    split at h
    · cases h
      exact ⟨_, _, by simp [crcBytes], rfl⟩
    · cases h
  · rintro ⟨code, crc, rfl, rfl⟩
    simp [decodeExcResponse, crcBytes]

/-! ### Decoding what was encoded -/

/-- Decoding inverts encoding, for every instruction, well-formed or not: the decoder checks no field's value but the
function byte's (R61). A write confirmation has the fields of a read request (R62, R65). -/
theorem decode_encode (i : Instr) : decode (encode i) = .ok i := by
  cases i with
  | nop => exact decodeCommand_nop 0
  | crcInit => exact decodeCommand_crcInit 0
  | crcByte b => simp [encode, decode]
  | loadDesc slave func addr count base => simp [encode, decode, descArg_fields]
  | build => exact decodeCommand_build 0
  | rxClear => exact decodeCommand_rxClear 0
  | rxPush b => simp [encode, decode]
  | validate => exact decodeCommand_validate 0
  | reqReadCoilStatus slave addr count crc => exact decodeReadRequest_ok_iff.2 ⟨addr, count, crc, rfl, rfl⟩
  | reqReadInputStatus slave addr count crc => exact decodeReadRequest_ok_iff.2 ⟨addr, count, crc, rfl, rfl⟩
  | reqReadHoldingRegisters slave addr count crc => exact decodeReadRequest_ok_iff.2 ⟨addr, count, crc, rfl, rfl⟩
  | reqReadInputRegisters slave addr count crc => exact decodeReadRequest_ok_iff.2 ⟨addr, count, crc, rfl, rfl⟩
  | reqForceMultipleCoils slave addr count n data crc =>
    exact decodeWriteRequest_ok_iff.2 ⟨addr, count, n, data, crc, rfl, rfl⟩
  | reqPresetMultipleRegisters slave addr count n data crc =>
    exact decodeWriteRequest_ok_iff.2 ⟨addr, count, n, data, crc, rfl, rfl⟩
  | rspReadCoilStatus slave n data crc => exact decodeReadResponse_ok_iff.2 ⟨n, data, crc, rfl, rfl⟩
  | rspReadInputStatus slave n data crc => exact decodeReadResponse_ok_iff.2 ⟨n, data, crc, rfl, rfl⟩
  | rspReadHoldingRegisters slave n data crc => exact decodeReadResponse_ok_iff.2 ⟨n, data, crc, rfl, rfl⟩
  | rspReadInputRegisters slave n data crc => exact decodeReadResponse_ok_iff.2 ⟨n, data, crc, rfl, rfl⟩
  | rspForceMultipleCoils slave addr count crc => exact decodeReadRequest_ok_iff.2 ⟨addr, count, crc, rfl, rfl⟩
  | rspPresetMultipleRegisters slave addr count crc => exact decodeReadRequest_ok_iff.2 ⟨addr, count, crc, rfl, rfl⟩
  | rspExcReadCoilStatus slave code crc => exact decodeExcResponse_ok_iff.2 ⟨code, crc, rfl, rfl⟩
  | rspExcReadInputStatus slave code crc => exact decodeExcResponse_ok_iff.2 ⟨code, crc, rfl, rfl⟩
  | rspExcReadHoldingRegisters slave code crc => exact decodeExcResponse_ok_iff.2 ⟨code, crc, rfl, rfl⟩
  | rspExcReadInputRegisters slave code crc => exact decodeExcResponse_ok_iff.2 ⟨code, crc, rfl, rfl⟩
  | rspExcForceMultipleCoils slave code crc => exact decodeExcResponse_ok_iff.2 ⟨code, crc, rfl, rfl⟩
  | rspExcPresetMultipleRegisters slave code crc => exact decodeExcResponse_ok_iff.2 ⟨code, crc, rfl, rfl⟩

/-! ### Encoding what was decoded -/

section
variable {wrap : List Byte → Code} {k : Nat} {slave f : Byte} {rest : List Byte} {i : Instr}

/-- The frame of a decoded form with the fields of a read request (R62, R65). -/
theorem encode_of_decodeReadRequest {make : Word → Word → Word → Instr} (hf : f.toNat = k)
    (h : decodeReadRequest make rest = .ok i)
    (hmake : ∀ addr count crc,
      encode (make addr count crc) = wrap (readRequestBytes slave (BitVec.ofNat 8 k) addr count crc)) :
    encode i = wrap (slave :: f :: rest) := by
  obtain ⟨addr, count, crc, rfl, rfl⟩ := decodeReadRequest_ok_iff.1 h
  rw [hmake, ← hf, BitVec.ofNat_toNat, BitVec.setWidth_eq]
  rfl

/-- The frame of a decoded write request (R63). -/
theorem encode_of_decodeWriteRequest {make : Word → Word → Byte → List Byte → Word → Instr} (hf : f.toNat = k)
    (h : decodeWriteRequest make rest = .ok i)
    (hmake : ∀ addr count n data crc,
      encode (make addr count n data crc) = wrap (writeRequestBytes slave (BitVec.ofNat 8 k) addr count n data crc)) :
    encode i = wrap (slave :: f :: rest) := by
  obtain ⟨addr, count, n, data, crc, rfl, rfl⟩ := decodeWriteRequest_ok_iff.1 h
  rw [hmake, ← hf, BitVec.ofNat_toNat, BitVec.setWidth_eq]
  rfl

/-- The frame of a decoded read response (R64). -/
theorem encode_of_decodeReadResponse {make : Byte → List Byte → Word → Instr} (hf : f.toNat = k)
    (h : decodeReadResponse make rest = .ok i)
    (hmake : ∀ n data crc, encode (make n data crc) = wrap (readResponseBytes slave (BitVec.ofNat 8 k) n data crc)) :
    encode i = wrap (slave :: f :: rest) := by
  obtain ⟨n, data, crc, rfl, rfl⟩ := decodeReadResponse_ok_iff.1 h
  rw [hmake, ← hf, BitVec.ofNat_toNat, BitVec.setWidth_eq]
  rfl

/-- The frame of a decoded exception response (R66). -/
theorem encode_of_decodeExcResponse {make : Byte → Word → Instr} (hf : f.toNat = k)
    (h : decodeExcResponse make rest = .ok i)
    (hmake : ∀ code crc, encode (make code crc) = wrap (slave :: BitVec.ofNat 8 k :: code :: crcBytes crc)) :
    encode i = wrap (slave :: f :: rest) := by
  obtain ⟨code, crc, rfl, rfl⟩ := decodeExcResponse_ok_iff.1 h
  rw [hmake, ← hf, BitVec.ofNat_toNat, BitVec.setWidth_eq]

end

/-- A request that decodes is the encoding of what it decodes to, whatever its function byte (R61 to R63). -/
theorem encode_of_decodeRequest {bytes : List Byte} {i : Instr} (h : decodeRequest bytes = .ok i) :
    encode i = .request bytes := by
  unfold decodeRequest at h
  split at h
  · split at h
    case h_1 hf => exact encode_of_decodeReadRequest hf h fun _ _ _ => rfl
    case h_2 hf => exact encode_of_decodeReadRequest hf h fun _ _ _ => rfl
    case h_3 hf => exact encode_of_decodeReadRequest hf h fun _ _ _ => rfl
    case h_4 hf => exact encode_of_decodeReadRequest hf h fun _ _ _ => rfl
    case h_5 hf => exact encode_of_decodeWriteRequest hf h fun _ _ _ _ _ => rfl
    case h_6 hf => exact encode_of_decodeWriteRequest hf h fun _ _ _ _ _ => rfl
    case h_7 => cases h
  · cases h

/-- A response that decodes is the encoding of what it decodes to, whatever its function byte (R61, R64 to R66). -/
theorem encode_of_decodeResponse {bytes : List Byte} {i : Instr} (h : decodeResponse bytes = .ok i) :
    encode i = .response bytes := by
  unfold decodeResponse at h
  split at h
  · split at h
    case h_1 hf => exact encode_of_decodeReadResponse hf h fun _ _ _ => rfl
    case h_2 hf => exact encode_of_decodeReadResponse hf h fun _ _ _ => rfl
    case h_3 hf => exact encode_of_decodeReadResponse hf h fun _ _ _ => rfl
    case h_4 hf => exact encode_of_decodeReadResponse hf h fun _ _ _ => rfl
    case h_5 hf => exact encode_of_decodeReadRequest hf h fun _ _ _ => rfl
    case h_6 hf => exact encode_of_decodeReadRequest hf h fun _ _ _ => rfl
    case h_7 hf => exact encode_of_decodeExcResponse hf h fun _ _ => rfl
    case h_8 hf => exact encode_of_decodeExcResponse hf h fun _ _ => rfl
    case h_9 hf => exact encode_of_decodeExcResponse hf h fun _ _ => rfl
    case h_10 hf => exact encode_of_decodeExcResponse hf h fun _ _ => rfl
    case h_11 hf => exact encode_of_decodeExcResponse hf h fun _ _ => rfl
    case h_12 hf => exact encode_of_decodeExcResponse hf h fun _ _ => rfl
    case h_13 => cases h
  · cases h

end Sys2Proof

section
open Sys2Proof Sys2Proof.Machine

/-- Settles O2: `decode_encode` asks for no well-formedness. -/
theorem decodeInvertsEncode : Obligations.DecodeInvertsEncode := fun i _ => decode_encode i

/-- Settles O1, opcode by opcode. -/
theorem commandWordsFollowTheOpcodeMap : Obligations.CommandWordsFollowTheOpcodeMap := by
  intro arg
  refine ⟨decodeCommand_nop arg, decodeCommand_crcInit arg, decodeCommand_crcByte arg, decodeCommand_loadDesc arg,
    decodeCommand_build arg, decodeCommand_rxClear arg, decodeCommand_rxPush arg, decodeCommand_validate arg, ?_⟩
  intro opcode h
  have hop : opcodeField (opcode ++ arg) = opcode := opcodeField_commandWord opcode arg
  rw [decode, decodeCommand_reserved (by rwa [hop]), hop]

/-- Settles O3, by the direction of the frame. -/
theorem encodeInvertsFrameDecoding : Obligations.EncodeInvertsFrameDecoding :=
  fun _ _ => ⟨encode_of_decodeRequest, encode_of_decodeResponse⟩

/-- Settles O4, by running the decoder on each code. -/
theorem writtenOutWordsDecode : Obligations.WrittenOutWordsDecode := by
  unfold Obligations.WrittenOutWordsDecode
  decide

/-- Settles O5, with the law of the command port. -/
theorem stepRunsThePresentedCommand : Obligations.StepRunsThePresentedCommand := by
  intro s w rest i h hd
  rw [step_of_hostActions h, performAction, presentCommand_of_decode _ hd]

/-- Settles O6: the word decodes to no instruction, so the command port refuses it before the gate of `exec`. -/
theorem reservedOpcodesAreRefused : Obligations.ReservedOpcodesAreRefused := by
  intro s w rest h hop
  rw [step_of_hostActions h, performAction, presentCommand, decode, decodeCommand_reserved hop]
  rfl

end

/-! Lemmas and proof of the statement about RX_FRAME (spec/30_encoding.md R59): the receive buffer filled by one RX_PUSH a
byte. -/
namespace Sys2Proof.Machine

/-! ### A run of commands -/

/-- A run whose first step answers a state goes on from that state. -/
theorem run_succ_of_step {M : Host.Core} {s t : M.State} (n : Nat) (h : M.step s = .next t) :
    M.run (n + 1) s = M.run n t := by
  rw [Host.Core.run, h]

/-- A run whose first action is a command that takes its effect. -/
theorem run_command {s t : State} {w : CommandWord} {rest : List HostAction} {i : Instr} (n : Nat)
    (h : s.hostActions = .command w :: rest) (hd : decode (.command w) = .ok i)
    (hexec : exec i { s with hostActions := rest } = .next t) :
    Host.Core.run core (n + 1) s = Host.Core.run core n t := by
  apply run_succ_of_step (M := core)
  show step s = .next t
  rw [step_of_hostActions h, performAction, presentCommand_of_decode _ hd, hexec]

/-! ### One received byte (R124) -/

/-- The state after RX_PUSH of `b` took its effect in `s`. -/
def pushed (s : State) (b : Byte) : State :=
  if s.rxLen.toNat < maxFrame then
    { s with
      rxBuf := s.rxBuf.setIfInBounds s.rxLen.toNat b
      rxLen := s.rxLen + 1 }
  else s.setRxOvf 1

theorem exec_rxPush {s : State} (b : Byte) (h : s.faulted = false) : exec (.rxPush b) s = .next (pushed s b) :=
  runCommand_ok _ h

theorem pushed_of_lt {s : State} (b : Byte) (h : s.rxLen.toNat < 128) :
    pushed s b = { s with rxBuf := s.rxBuf.setIfInBounds s.rxLen.toNat b, rxLen := s.rxLen + 1 } := if_pos h

theorem pushed_of_ge {s : State} (b : Byte) (h : 128 ≤ s.rxLen.toNat) : pushed s b = s.setRxOvf 1 :=
  if_neg (Nat.not_lt.2 h)

/-- RX_PUSH writes the receive buffer and `STATUS` alone (R124). -/
theorem pushed_eq (s : State) (b : Byte) :
    pushed s b = { s with rxBuf := (pushed s b).rxBuf, rxLen := (pushed s b).rxLen, status := (pushed s b).status } := by
  rw [pushed]
  split <;> rfl

@[simp] theorem pushed_hostActions (s : State) (b : Byte) : (pushed s b).hostActions = s.hostActions := by
  rw [pushed_eq]

/-- RX_PUSH does not depend on the actions left. -/
theorem pushed_withHostActions (s : State) (b : Byte) (rest : List HostAction) :
    pushed { s with hostActions := rest } b = { pushed s b with hostActions := rest } := by
  simp only [pushed]
  split <;> rfl

@[simp] theorem pushed_faulted (s : State) (b : Byte) : (pushed s b).faulted = s.faulted := by
  rw [pushed]
  split
  · rfl
  · exact State.setRxOvf_faulted 1 s

@[simp] theorem pushed_result (s : State) (b : Byte) : (pushed s b).result = s.result := by
  rw [pushed]
  split
  · rfl
  · exact State.setRxOvf_result 1 s

theorem pushed_rxLen_toNat {s : State} (b : Byte) (h : s.rxLen.toNat ≤ 128) :
    (pushed s b).rxLen.toNat = min (s.rxLen.toNat + 1) 128 := by
  by_cases hl : s.rxLen.toNat < 128
  · rw [pushed_of_lt b hl]
    show (s.rxLen + 1).toNat = _
    bv_omega
  · rw [pushed_of_ge b (by omega), State.setRxOvf_rxLen]
    omega

/-- `RX_OVF` is set by a byte that finds the buffer full (R26). -/
theorem pushed_rxOvf (s : State) (b : Byte) :
    (pushed s b).rxOvf = if s.rxLen.toNat < 128 then s.rxOvf else 1 := by
  split_ifs with hl
  · rw [pushed_of_lt b hl]
    rfl
  · rw [pushed_of_ge b (by omega), State.setRxOvf_rxOvf]

/-- A received byte stands behind the bytes before it, unless the buffer is full (R124). -/
theorem pushed_rxBytes {s : State} (b : Byte) (h : s.rxLen.toNat ≤ 128) :
    (pushed s b).rxBytes = (s.rxBytes ++ [b]).take 128 := by
  have hlen := rxBytes_length s
  by_cases hl : s.rxLen.toNat < 128
  · rw [List.take_of_length_le (by simp; omega), State.rxBytes, pushed_rxLen_toNat b h, min_eq_left (by omega),
      pushed_of_lt b hl, Vector.toList_setIfInBounds, List.take_add_one, List.take_set_of_le (le_refl _), State.rxBytes]
    simp [hl]
  · rw [List.take_append_of_le_length (by omega), List.take_of_length_le (by omega), pushed_of_ge b (by omega)]
    rfl

/-! ### A received frame (R59) -/

/-- The state after RX_PUSH of each byte of `bs` took its effect. -/
def received (s : State) (bs : List Byte) : State := bs.foldl pushed s

@[simp] theorem received_nil (s : State) : received s [] = s := rfl

@[simp] theorem received_cons (s : State) (b : Byte) (bs : List Byte) : received s (b :: bs) = received (pushed s b) bs := rfl

/-- RX_PUSH of each byte of `bs`: RX_FRAME without its RX_CLEAR (R59). -/
def rxPushActions (bs : List Byte) : List HostAction := bs.map fun b => .command (commandWord 0x06 (byteArg b))

theorem rxFrameActions_eq (bs : List Byte) :
    rxFrameActions bs = .command (commandWord 0x05 0) :: rxPushActions bs := rfl

/-- A run of RX_PUSH commands (R59). -/
theorem run_rxPushActions (bs : List Byte) {s : State} {rest : List HostAction} (hf : s.faulted = false)
    (h : s.hostActions = rxPushActions bs ++ rest) :
    Host.Core.run core bs.length s = .next (received { s with hostActions := rest } bs) := by
  induction bs generalizing s with
  | nil =>
    subst h
    rfl
  | cons b bs ih =>
    have htail := ih (s := pushed { s with hostActions := rxPushActions bs ++ rest } b)
      ((pushed_faulted _ _).trans hf) (pushed_hostActions _ _)
    rw [← pushed_withHostActions] at htail
    exact (run_command bs.length h (decode_encode (.rxPush b)) (exec_rxPush b hf)).trans htail

/-- RX_PUSH commands write the receive buffer and `STATUS` alone (R124). -/
theorem received_eq (s : State) (bs : List Byte) :
    received s bs =
      { s with rxBuf := (received s bs).rxBuf, rxLen := (received s bs).rxLen, status := (received s bs).status } := by
  induction bs generalizing s with
  | nil => rfl
  | cons b bs ih =>
    rw [received_cons, ih, pushed_eq]

@[simp] theorem received_result (s : State) (bs : List Byte) : (received s bs).result = s.result := by
  induction bs generalizing s with
  | nil => rfl
  | cons b bs ih => rw [received_cons, ih, pushed_result]

/-- `RX_OVF` is set when the bytes do not fit behind those received before (R26). -/
theorem received_rxOvf {s : State} (bs : List Byte) (h : s.rxLen.toNat ≤ 128) :
    (received s bs).rxOvf = if s.rxLen.toNat + bs.length ≤ 128 then s.rxOvf else 1 := by
  induction bs generalizing s with
  | nil => simp [h]
  | cons b bs ih =>
    have hlen := pushed_rxLen_toNat b h
    rw [received_cons, ih (by omega), pushed_rxOvf, List.length_cons]
    by_cases hfit : s.rxLen.toNat + (bs.length + 1) ≤ 128
    · rw [if_pos (by omega), if_pos (by omega), if_pos hfit]
    · rw [if_neg hfit]
      by_cases hl : s.rxLen.toNat < 128
      · rw [if_neg (by omega)]
      · rw [if_neg hl, ite_self]

/-- Cutting a list that is cut again with more behind it changes nothing. -/
theorem take_append_take {α : Type} (n : Nat) (l m : List α) : (l.take n ++ m).take n = (l ++ m).take n := by
  rw [List.take_append, List.take_append, List.take_take, List.length_take, min_self,
    show n - min n l.length = n - l.length by omega]

/-- The first 128 of all bytes received stand in `RXBUF` (R29, R124). -/
theorem received_rxBytes {s : State} (bs : List Byte) (h : s.rxLen.toNat ≤ 128) :
    (received s bs).rxBytes = (s.rxBytes ++ bs).take 128 := by
  induction bs generalizing s with
  | nil =>
    have hlen := rxBytes_length s
    rw [received_nil, List.append_nil, List.take_of_length_le (by omega)]
  | cons b bs ih =>
    have hlen := pushed_rxLen_toNat b h
    rw [received_cons, ih (by omega), pushed_rxBytes b h, take_append_take, List.append_assoc, List.singleton_append]

/-- The state after RX_CLEAR took its effect (R123). -/
def rxCleared (s : State) : State := (({ s with rxLen := 0 }).setRxOvf 0).setResult .none

theorem exec_rxClear {s : State} (h : s.faulted = false) : exec .rxClear s = .next (rxCleared s) := runCommand_ok _ h

@[simp] theorem rxCleared_faulted (s : State) : (rxCleared s).faulted = s.faulted := by
  rw [rxCleared, State.setResult_faulted, State.setRxOvf_faulted]
  rfl

@[simp] theorem rxCleared_rxOvf (s : State) : (rxCleared s).rxOvf = 0 := by
  rw [rxCleared, State.setResult_rxOvf, State.setRxOvf_rxOvf]

@[simp] theorem rxCleared_result (s : State) : (rxCleared s).result = 0 := State.setResult_result .none _

theorem rxCleared_rxBytes (s : State) : (rxCleared s).rxBytes = [] := rfl

end Sys2Proof.Machine

section
open Sys2Proof Sys2Proof.Machine

/-- Settles O32: RX_CLEAR leaves no bytes and no overflow, and the RX_PUSH commands fill the buffer from there. -/
theorem receivedFramesAccumulate : Obligations.ReceivedFramesAccumulate := by
  intro s bs rest hf h
  have hrun : Host.Core.run core (bs.length + 1) s =
      .next (received (rxCleared { s with hostActions := rest }) bs) := by
    rw [rxFrameActions_eq, List.cons_append] at h
    rw [run_command _ h (decode_encode .rxClear) (exec_rxClear hf)]
    exact run_rxPushActions bs ((rxCleared_faulted _).trans hf) rfl
  have hlen : (rxCleared { s with hostActions := rest }).rxLen.toNat = 0 := rfl
  refine ⟨_, hrun, ?_, ?_, ?_, received_eq _ _⟩
  · rw [received_rxBytes bs (by omega), rxCleared_rxBytes, List.nil_append]
  · rw [received_rxOvf bs (by omega), hlen, Nat.zero_add, rxCleared_rxOvf]
    rfl
  · rw [received_result, rxCleared_result]
    rfl

end

/-! Lemmas and proofs of the statements about the descriptor (spec/40_descriptor.md): its two commands, its checks and the
faults they raise. -/
namespace Sys2Proof.Machine

/-! ### The commands -/

/-- NOP with the fault gate open or shut (R79). -/
theorem exec_nop (s : State) : exec .nop s = .next s := by
  cases hf : s.faulted with
  | true => exact runCommand_faulted (.ok s) hf
  | false => exact runCommand_ok s hf

/-- LOAD_DESC with the fault gate open (R80). -/
theorem exec_loadDesc {s : State} (slave func : Byte) (addr count base : Word) (hf : s.faulted = false) :
    exec (.loadDesc slave func addr count base) s = .next { s with
      dSlave := slave, dFunc := func, dAddr := addr, dCount := count, dBase := base, descLoaded := true } :=
  runCommand_ok _ hf

/-! ### The faults of the checks -/

/-- Raising a cause that has a code is fault entry (R152). -/
theorem raiseFault_of_ne_uninitBuf {c : FaultCause} (s : State) (hc : c ≠ .uninitBuf) :
    raiseFault c s = .next (enterFault c s) := by
  cases c with
  | uninitBuf => exact absurd rfl hc
  | noDesc | badDesc | bufRange => rfl

/-- A check that fails at BUILD faults with its cause (R105, R152). -/
theorem exec_build_faultEntered {s : State} {c : FaultCause} (hf : s.faulted = false)
    (hc : buildCheck s s.dSlave s.dFunc s.dCount = .error c) :
    ∃ t, exec .build s = .next t ∧ FaultEntered s t (causeCode c) :=
  ⟨_, (execBuild_error hf hc).trans (raiseFault_of_ne_uninitBuf s (buildCheck_error hc)), enterFault_faultEntered c s⟩

/-- A check that fails at VALIDATE faults with its cause (R126, R152). -/
theorem exec_validate_faultEntered {s : State} {c : FaultCause} (hf : s.faulted = false)
    (hc : validateCheck s = .error c) : ∃ t, exec .validate s = .next t ∧ FaultEntered s t (causeCode c) :=
  ⟨_, (judgeFrame_error s.rxBytes hf hc).trans (raiseFault_of_ne_uninitBuf s (validateCheck_error hc)),
    enterFault_faultEntered c s⟩

/-- BUILD finds a loaded descriptor illegal (R105). -/
theorem buildCheck_of_not_validDesc {s : State} {slave f : Byte} {count : Word} (hl : s.descLoaded = true)
    (hv : validDesc slave f count = false) : buildCheck s slave f count = .error .badDesc := by
  simp [buildCheck, hl, hv]

/-- VALIDATE finds a loaded descriptor illegal (R126). -/
theorem validateCheck_of_not_validDesc {s : State} (hl : s.descLoaded = true)
    (hv : validDesc s.dSlave s.dFunc s.dCount = false) : validateCheck s = .error .badDesc := by
  simp [validateCheck, hl, hv]

/-! ### The checks of a descriptor -/

/-- The broadcast check (R84). -/
theorem broadcastLegal_iff (slave f : Byte) :
    broadcastLegal slave f = true ↔ (slave = 0#8 → f = 15#8 ∨ f = 16#8) := by
  rw [broadcastLegal, Bool.or_eq_true, bne_iff_ne, ne_eq, isWrite_iff, ← imp_iff_not_or]
  rfl

/-- The largest count of each supported function (R85). -/
theorem le_maxCount_iff {f : Byte} (n : Nat) (hf : isSupported f = true) :
    n ≤ maxCount f ↔ (f = 1#8 ∨ f = 2#8 ∨ f = 3#8 ∨ f = 4#8 → n ≤ 61) ∧ (f = 15#8 → n ≤ 952) ∧ (f = 16#8 → n ≤ 59) := by
  rcases (isSupported_iff f).1 hf with rfl | rfl | rfl | rfl | rfl | rfl <;>
    simp [maxCount, isRead_iff, fcForceMultipleCoils, fcPresetMultipleRegisters, maxRead, maxWrite15, maxWrite16]

/-- The count check of a supported function (R85). -/
theorem countLegal_iff {f : Byte} (count : Word) (hf : isSupported f = true) :
    countLegal f count = true ↔ 1 ≤ count.toNat ∧
      (f = 1#8 ∨ f = 2#8 ∨ f = 3#8 ∨ f = 4#8 → count.toNat ≤ 61) ∧
      (f = 15#8 → count.toNat ≤ 952) ∧ (f = 16#8 → count.toNat ≤ 59) := by
  rw [countLegal, Bool.and_eq_true, decide_eq_true_eq, decide_eq_true_eq, le_maxCount_iff _ hf]
  rfl

end Sys2Proof.Machine

section
open Sys2Proof Sys2Proof.Machine

/-- Settles O11: the opcode's law of the decoder, and the meaning with the gate open or shut. -/
theorem nopWritesNothing : Obligations.NopWritesNothing := ⟨decodeCommand_nop, exec_nop⟩

/-- Settles O12: the illegal descriptor fails the check of BUILD and that of VALIDATE, and LOAD_DESC itself has none. -/
theorem loadDescWritesTheDescriptor : Obligations.LoadDescWritesTheDescriptor := by
  refine ⟨fun s hf hl hv => ⟨?_, ?_⟩, decodeCommand_loadDesc, fun _ => exec_loadDesc⟩
  · exact exec_build_faultEntered hf (buildCheck_of_not_validDesc hl hv)
  · exact exec_validate_faultEntered hf (validateCheck_of_not_validDesc hl hv)

/-- Settles O13, check by check; the count check is read off once the function is known to be supported. -/
theorem validDescriptorsAreTheSpecs : Obligations.ValidDescriptorsAreTheSpecs := by
  intro slave f count
  rw [validDesc, Bool.and_eq_true, Bool.and_eq_true, Bool.and_eq_true, and_assoc, and_assoc]
  refine and_congr decide_eq_true_iff ?_
  rw [← isSupported_iff]
  refine and_congr_right fun hf => ?_
  rw [broadcastLegal_iff, countLegal_iff count hf]

end

/-! Lemmas and proofs of the statements about the CRC (spec/41_crc.md): the shift as an injective map, the CRC of a frame
that carries its CRC, and the two commands. -/
namespace Sys2Proof

/-! ### One shift (R94) -/

/-- The bits of a word after one shift. -/
theorem getLsbD_crcShift (c : Word) (i : Nat) :
    (crcShift c).getLsbD i = (c.getLsbD (i + 1) ^^ (c.getLsbD 0 && crcPoly.getLsbD i)) := by
  rw [crcShift, Nat.add_comm i 1]
  cases h0 : c.getLsbD 0 with
  | false => simp [-BitVec.getLsbD_eq_getElem]
  | true => simp [-BitVec.getLsbD_eq_getElem]

/-- Bit 15 of the shifted word is the bit that was shifted out, since bit 15 of `POLY` is 1; every other bit follows. -/
theorem crcShift_injective : Function.Injective crcShift := by
  intro a b h
  have hbit (i : Nat) : (a.getLsbD (i + 1) ^^ (a.getLsbD 0 && crcPoly.getLsbD i)) =
      (b.getLsbD (i + 1) ^^ (b.getLsbD 0 && crcPoly.getLsbD i)) := by
    rw [← getLsbD_crcShift, ← getLsbD_crcShift, h]
  have hout : a.getLsbD 0 = b.getLsbD 0 := by
    simpa [crcPoly] using hbit 15
  apply BitVec.eq_of_getLsbD_eq
  intro i _
  cases i with
  | zero => exact hout
  | succ j => simpa only [hout, Bool.xor_left_inj] using hbit j

/-! ### Several shifts -/

theorem crcShifts_eq_iterate (n : Nat) (c : Word) : crcShifts n c = crcShift^[n] c := by
  induction n generalizing c with
  | zero => rfl
  | succ n ih => exact ih (crcShift c)

theorem crcShifts_injective (n : Nat) : Function.Injective (crcShifts n) := by
  rw [show crcShifts n = crcShift^[n] from funext (crcShifts_eq_iterate n)]
  exact crcShift_injective.iterate n

/-- Shifts that shift out zeros alone are a shift right: `POLY` never comes in. -/
theorem crcShifts_eq_ushiftRight {n : Nat} {c : Word} (h : ∀ i < n, c.getLsbD i = false) : crcShifts n c = c >>> n := by
  induction n generalizing c with
  | zero => simp [crcShifts]
  | succ n ih =>
    have hshift : crcShift c = c >>> 1 := if_neg (by rw [h 0 (by omega)]; decide)
    have hlow : ∀ i < n, (c >>> 1).getLsbD i = false := fun i hi => by
      rw [BitVec.getLsbD_ushiftRight]
      exact h (1 + i) (by omega)
    rw [crcShifts, hshift, ih hlow, ← BitVec.shiftRight_add, Nat.add_comm]

/-! ### One byte -/

/-- Different CRCs stay different under the same byte. -/
theorem crcUpdate_left_injective (b : Byte) : Function.Injective (crcUpdate · b) := fun _ _ h =>
  (BitVec.xor_left_inj _).1 (crcShifts_injective 8 h)

/-- Different bytes take a CRC to different CRCs. -/
theorem crcUpdate_right_injective (c : Word) : Function.Injective (crcUpdate c) := by
  intro a b h
  have hw : a.setWidth 16 = b.setWidth 16 := (BitVec.xor_right_inj _).1 (crcShifts_injective 8 h)
  simpa using congrArg (BitVec.setWidth 8) hw

/-- The low byte of a CRC leaves its high byte (R100). -/
theorem crcUpdate_loByte (c : Word) : crcUpdate c (loByte c) = (hiByte c).setWidth 16 := by
  have hlow : ∀ i < 8, (c ^^^ (loByte c).setWidth 16).getLsbD i = false := fun i hi => by
    simp [loByte, hi, show i < 16 by omega]
  rw [crcUpdate, crcShifts_eq_ushiftRight hlow]
  apply BitVec.eq_of_getLsbD_eq
  intro i hi
  by_cases h8 : i < 8
  · simp [hiByte, h8, hi]
  · simp [hiByte, h8, BitVec.getLsbD_of_ge c (8 + i) (by omega)]

/-- A CRC of one byte is cleared by that byte. -/
theorem crcUpdate_setWidth_self (b : Byte) : crcUpdate (b.setWidth 16) b = 0#16 := by
  rw [crcUpdate, BitVec.xor_self]
  decide

/-! ### The CRC of a list of bytes (R93) -/

theorem foldl_crcUpdate_injective (bs : List Byte) : Function.Injective (bs.foldl crcUpdate ·) := by
  induction bs with
  | nil => exact Function.injective_id
  | cons b bs ih => exact ih.comp (crcUpdate_left_injective b)

/-- Lists that differ in one byte differ in their CRC. -/
theorem crc16_append_cons_injective (xs ys : List Byte) : Function.Injective fun b => crc16 (xs ++ b :: ys) := by
  intro a b h
  simp only [crc16, List.foldl_append, List.foldl_cons] at h
  exact crcUpdate_right_injective _ (foldl_crcUpdate_injective ys h)

/-- Any change of one byte changes the CRC. -/
theorem crc16_set_ne {r : List Byte} {i : Nat} {b : Byte} (hi : i < r.length) (hb : b ≠ r.getD i 0) :
    crc16 (r.set i b) ≠ crc16 r := by
  have hr : r = r.take i ++ r.getD i 0 :: r.drop (i + 1) := by
    rw [List.getD_eq_getElem _ _ hi, List.getElem_cons_drop, List.take_append_drop]
  rw [List.set_eq_take_append_cons_drop, if_pos hi]
  conv_rhs => rw [hr]
  exact (crc16_append_cons_injective _ _).ne hb

/-- The CRC of a frame with its own CRC is 0 (R100). -/
theorem crc16_crcFrame (body : List Byte) : crc16 (crcFrame body) = 0#16 := by
  have hfold : crc16 (crcFrame body) =
      crcUpdate (crcUpdate (crc16 body) (loByte (crc16 body))) (hiByte (crc16 body)) := by
    simp [crc16, crcFrame, crcBytes]
  rw [hfold, crcUpdate_loByte, crcUpdate_setWidth_self]

/-- A frame is its body and its CRC field, low byte first (R41). -/
theorem take_append_crcBytes_crcField {r : List Byte} (h : 2 ≤ r.length) :
    r.take (r.length - 2) ++ crcBytes (crcField r) = r := by
  obtain ⟨lo, hi, hend⟩ := List.length_eq_two.1 (show (r.drop (r.length - 2)).length = 2 by simp; omega)
  have hr : r = r.take (r.length - 2) ++ [lo, hi] := by rw [← hend, List.take_append_drop]
  have hfield : crcField r = joinBytes hi lo := by
    rw [hr]
    simp [crcField]
  rw [hfield, crcBytes, loByte_joinBytes, hiByte_joinBytes, ← hr]

/-- A frame whose CRC checks is the frame of its body (R98, R99). -/
theorem eq_crcFrame_of_crcOk {r : List Byte} (h : 2 ≤ r.length) (hok : crcOk r = true) :
    r = crcFrame (r.take (r.length - 2)) := by
  rw [crcFrame, show crc16 (r.take (r.length - 2)) = crcField r from eq_of_beq hok, take_append_crcBytes_crcField h]

/-- The CRC of a frame that checks is 0 (R100). -/
theorem crc16_eq_zero_of_crcOk {r : List Byte} (h : 2 ≤ r.length) (hok : crcOk r = true) : crc16 r = 0#16 := by
  rw [eq_crcFrame_of_crcOk h hok, crc16_crcFrame]

/-- A byte with one bit flipped is another byte. -/
theorem xor_one_shiftLeft_ne (b : Byte) {k : Nat} (hk : k < 8) : b ^^^ (1#8 <<< k) ≠ b := by
  intro h
  have hbit := congrArg (BitVec.getLsbD · k) h
  simp [hk] at hbit

end Sys2Proof

namespace Sys2Proof.Machine

/-! ### The commands (R95, R96) -/

theorem exec_crcInit {s : State} (h : s.faulted = false) : exec .crcInit s = .next { s with crc := crcStart } :=
  runCommand_ok _ h

theorem exec_crcByte {s : State} (b : Byte) (h : s.faulted = false) :
    exec (.crcByte b) s = .next { s with crc := crcUpdate s.crc b } := runCommand_ok _ h

/-- CRC_BYTE of each byte of `bs`: CRC_BYTES without its CRC_INIT (R59). -/
def crcByteActions (bs : List Byte) : List HostAction := bs.map fun b => .command (commandWord 0x02 (byteArg b))

theorem crcBytesActions_eq (bs : List Byte) :
    crcBytesActions bs = .command (commandWord 0x01 0) :: crcByteActions bs := rfl

/-- A run of CRC_BYTE commands folds the bytes into `CRC` (R59, R96). -/
theorem run_crcByteActions (bs : List Byte) {s : State} {rest : List HostAction} (hf : s.faulted = false)
    (h : s.hostActions = crcByteActions bs ++ rest) :
    Host.Core.run core bs.length s = .next { s with crc := bs.foldl crcUpdate s.crc, hostActions := rest } := by
  induction bs generalizing s with
  | nil =>
    subst h
    rfl
  | cons b bs ih =>
    have hhead := run_command bs.length h (decode_encode (.crcByte b)) (exec_crcByte b hf)
    exact hhead.trans (ih hf rfl)

end Sys2Proof.Machine

section
open Sys2Proof Sys2Proof.Machine

/-- Settles O18: CRC_INIT leaves the start value of `crc16`, and each CRC_BYTE is one step of its fold. -/
theorem incrementalCrcIsCrc16 : Obligations.IncrementalCrcIsCrc16 := by
  intro s bs rest hf h
  rw [crcBytesActions_eq, List.cons_append] at h
  rw [run_command _ h (decode_encode .crcInit) (exec_crcInit hf)]
  exact run_crcByteActions bs hf rfl

/-- Settles O19: the low byte of the CRC leaves its high byte, which the last byte clears. -/
theorem crcRoundTrip : Obligations.CrcRoundTrip := fun body => ⟨crcOk_crcFrame body, crc16_crcFrame body⟩

/-- Settles O20: a changed frame that checks has the CRC 0, as the frame itself has, but a change of one byte changes the
CRC. -/
theorem singleBitErrorsAreDetected : Obligations.SingleBitErrorsAreDetected := by
  intro body i k _ hi hk
  rw [Bool.eq_false_iff]
  intro hok
  have hzero := crc16_eq_zero_of_crcOk (by simp) hok
  exact crc16_set_ne (by simpa) (xor_one_shiftLeft_ne _ hk) (hzero.trans (crc16_crcFrame body).symm)

/-- Settles O14: the eight shifts are an iteration, and so is a fold that ignores its list. -/
theorem crcUpdateIsEightShifts : Obligations.CrcUpdateIsEightShifts := by
  refine ⟨fun c b => ?_, by decide, by decide, by decide, by decide, by decide, by decide⟩
  have hfold := List.foldl_const crcShift (c ^^^ b.setWidth 16) (List.range 8)
  rw [List.length_range, ← crcShifts_eq_iterate] at hfold
  exact hfold.symm

/-- Settles O15, with the gate open and shut. -/
theorem crcInitLoadsTheStartValue : Obligations.CrcInitLoadsTheStartValue := by
  refine fun s => ⟨fun hf => ⟨exec_crcInit hf, ?_⟩, fun hf => ?_⟩
  · exact exec_crcInit (s := { s with crc := 0xFFFF#16 }) hf
  · exact runCommand_faulted (.ok { s with crc := crcStart }) hf

/-- Settles O16: from 0 a zero byte shifts out zeros alone. -/
theorem crcByteFoldsOneByte : Obligations.CrcByteFoldsOneByte := by
  refine fun s b hf => ⟨exec_crcByte b hf, ?_⟩
  rintro hc rfl
  have hkept : crcUpdate s.crc 0#8 = s.crc := by
    rw [hc]
    decide
  rw [exec_crcByte 0#8 hf, hkept]

/-- Refutes O17: a zero byte leaves the `CRC` 0xC001 as it is. -/
theorem not_zeroByteChangesEveryNonZeroCrc : ¬ Obligations.ZeroByteChangesEveryNonZeroCrc := by
  intro h
  have hfixed : crcUpdate 0xC001#16 0#8 = 0xC001#16 := by decide
  have hf : { State.reset with crc := 0xC001#16 }.faulted = false := by decide
  exact h { State.reset with crc := 0xC001#16 } _ hf (by decide) (exec_crcByte 0#8 hf) hfixed

end

/-! Lemmas and proofs of the statements about BUILD and the request forms (spec/42_serializer.md): what BUILD answers once
its checks pass, the fields of a new transaction, and the form whose frame BUILD emits. -/
namespace Sys2Proof.Machine

/-- The reads and the writes are apart (R13). -/
theorem isWrite_of_isRead {f : Byte} (h : isRead f = true) : isWrite f = false := by
  rcases (isRead_iff f).1 h with rfl | rfl | rfl | rfl <;> decide

/-! ### The frame BUILD emits -/

/-- The frame BUILD makes of the descriptor and of the payload `p` packed for it (R105). -/
def builtFrame (s : State) (p : List Byte) : List Byte :=
  crcFrame (requestHead s.dSlave s.dFunc s.dAddr s.dCount ++ p)

/-- A frame that BUILD emits fits `TXBUF` (R70, R117). -/
theorem builtFrame_fits {s : State} {p : List Byte} (hp : requestPayload s = .ok p)
    (hv : validDesc s.dSlave s.dFunc s.dCount = true) : (builtFrame s p).length ≤ 128 := by
  have := requestBody_length hp hv
  rw [builtFrame, crcFrame_length]
  omega

/-- The length of a built frame, function by function (R69, R117). -/
theorem builtFrame_length {s : State} {p : List Byte} (hp : requestPayload s = .ok p) :
    (builtFrame s p).length =
      if s.dFunc = 15#8 then 9 + (s.dCount.toNat + 7) / 8 else if s.dFunc = 16#8 then 9 + 2 * s.dCount.toNat else 8 := by
  rw [builtFrame, crcFrame_length, List.length_append, requestHead_length, requestPayload_length hp]
  by_cases h15 : s.dFunc = 15#8
  · have hdata : dataBytes 15#8 s.dCount.toNat = (s.dCount.toNat + 7) / 8 := rfl
    rw [h15, if_pos (by decide), if_pos rfl, hdata]
    omega
  · rw [if_neg h15]
    by_cases h16 : s.dFunc = 16#8
    · have hdata : dataBytes 16#8 s.dCount.toNat = 2 * s.dCount.toNat := rfl
      rw [h16, if_pos (by decide), if_pos rfl, hdata]
      omega
    · rw [if_neg h16, if_neg (by simp [isWrite_iff, h15, h16])]

/-! ### When BUILD takes its effect -/

/-- The payload of a write from the words it is packed from (R110, R111). -/
theorem requestPayload_of_readWords {s : State} {ws : List Word} (hw : isWrite s.dFunc = true)
    (hr : readWords s s.dBase.toNat (bufferWords s.cfg.coilLayout s.dFunc s.dCount.toNat) = .ok ws) :
    requestPayload s = .ok (BitVec.ofNat 8 (dataBytes s.dFunc s.dCount.toNat) ::
      requestData s.cfg.coilLayout s.dFunc s.dCount.toNat ws) := by
  simp [requestPayload, hw, hr]

/-- A payload is packed whenever its buffer words are in range and written (R115). -/
theorem requestPayload_total {s : State} (h : isWrite s.dFunc = true → BufferFits s ∧ BufferWritten s) :
    ∃ p, requestPayload s = .ok p := by
  cases hw : isWrite s.dFunc with
  | false => exact ⟨[], by simp [requestPayload, hw]⟩
  | true =>
    obtain ⟨hfits, hwritten⟩ := h hw
    obtain ⟨ws, hr⟩ := readWords_total hfits hwritten
    exact ⟨_, requestPayload_of_readWords hw hr⟩

/-- BUILD takes its effect when the block is ready for it (R105). -/
theorem exec_build_of_ready {s : State} (h : BuildReady s) :
    ∃ p, requestPayload s = .ok p ∧ (builtFrame s p).length ≤ 128 ∧
      exec .build s = .next (emitRequest (builtFrame s p) s.dSlave s) := by
  obtain ⟨hf, hl, hv, hbuf⟩ := h
  obtain ⟨p, hp⟩ := requestPayload_total hbuf
  have hc : buildCheck s s.dSlave s.dFunc s.dCount = .ok () :=
    buildCheck_ok.2 ⟨hl, hv, fun hw => (bufferInRange_iff _ _ _).2 (hbuf hw).1⟩
  exact ⟨p, hp, builtFrame_fits hp hv, execBuild_ok hf hc hp⟩

/-- A BUILD that leaves the block unfaulted passed its checks, packed its payload and emitted the frame. -/
theorem exec_build_next {s t : State} (h : exec .build s = .next t) (ht : t.faulted = false) :
    s.faulted = false ∧ buildCheck s s.dSlave s.dFunc s.dCount = .ok () ∧
      ∃ p, requestPayload s = .ok p ∧ (builtFrame s p).length ≤ 128 ∧ t = emitRequest (builtFrame s p) s.dSlave s := by
  rcases runCommand_next h with ⟨hf, rfl⟩ | ⟨hf, hb⟩ | ⟨-, c, -, -, rfl⟩
  · simp [hf] at ht
  · obtain ⟨hc, p, hp, rfl⟩ := buildBody_ok hb
    exact ⟨hf, hc, p, hp, builtFrame_fits hp (buildCheck_ok.1 hc).2.1, rfl⟩
  · simp at ht

/-! ### What an emitted frame writes -/

/-- The status fields of a new transaction (R21, R114). -/
theorem emitRequest_newTransaction (fr : List Byte) (slave : Byte) (s : State) :
    (emitRequest fr slave s).result = 0#3 ∧
      (emitRequest fr slave s).expectRsp = (if slave = 0#8 then 0#1 else 1#1) ∧
      (emitRequest fr slave s).excClassField = 0#2 ∧ (emitRequest fr slave s).excCode = 0#8 :=
  ⟨emitRequest_result fr slave s, by simp, emitRequest_excClassField fr slave s, emitRequest_excCode fr slave s⟩

/-- The bytes of `TXBUF` past an emitted frame keep their values (R28, R105). -/
theorem emitRequest_txBuf_of_ge {fr : List Byte} (slave : Byte) (s : State) {k : Nat} (h : k < 128)
    (hk : fr.length ≤ k) : (emitRequest fr slave s).txBuf[k] = s.txBuf[k] := by
  simp [hk]

/-- An emitted frame leaves `RX_OVF`, the fault fields and the reserved bits of `STATUS` alone. -/
theorem emitRequest_statusKept (fr : List Byte) (slave : Byte) (s : State) :
    (emitRequest fr slave s).rxOvf = s.rxOvf ∧ FaultFieldsKept s (emitRequest fr slave s) ∧
      ReservedKept s (emitRequest fr slave s) :=
  ⟨emitRequest_rxOvf fr slave s, by simp [FaultFieldsKept], emitRequest_reservedKept fr slave s⟩

/-! ### What BUILD reads (R116, R118) -/

/-- Words read from equal memories are equal. -/
theorem readWords_congr {s s' : State} (hcfg : s'.cfg = s.cfg) (hmem : ∀ a, memGet s'.bufMem a = memGet s.bufMem a)
    (a n : Nat) : readWords s' a n = readWords s a n := by
  induction n generalizing a with
  | zero => rfl
  | succ n ih =>
    have hread : memRead s' a = memRead s a := by rw [memRead, memRead, hcfg, hmem]
    rw [readWords, readWords, hread, ih]

/-- A written word that `readWords` answers with is the word of its address. -/
theorem memGet_of_readWords {s : State} {a n k : Nat} {ws : List Word} (h : readWords s a n = .ok ws) (hk : k < n) :
    memGet s.bufMem (a + k) = some (ws.getD k 0) :=
  (memRead_ok.1 ((readWords_ok.1 h).2 k hk)).2

/-- A point read from the buffer is its word not being 0, or its bit of its word, as `COIL_LAYOUT` says (R46). -/
theorem wordsPoint_of_readWords {s : State} {a n k : Nat} {ws : List Word}
    (h : readWords s a (bufferWords s.cfg.coilLayout 15#8 n) = .ok ws) (hk : k < n) :
    ∃ w, (s.cfg.coilLayout = .onePerWord → memGet s.bufMem (a + k) = some w ∧
        wordsPoint s.cfg.coilLayout ws k = decide (w ≠ 0)) ∧
      (s.cfg.coilLayout = .packed16 → memGet s.bufMem (a + k / 16) = some w ∧
        wordsPoint s.cfg.coilLayout ws k = w.getLsbD (k % 16)) := by
  cases hlayout : s.cfg.coilLayout with
  | onePerWord =>
    rw [hlayout] at h
    have hpoint : wordsPoint .onePerWord ws k = decide (ws.getD k 0 ≠ 0) := by
      simp [wordsPoint, bne, Bool.beq_eq_decide_eq]
    exact ⟨ws.getD k 0, fun _ => ⟨memGet_of_readWords h hk, hpoint⟩, nofun⟩
  | packed16 =>
    rw [hlayout] at h
    have hword : k / 16 < bufferWords .packed16 15#8 n := show k / 16 < (n + 15) / 16 by omega
    exact ⟨ws.getD (k / 16) 0, nofun, fun _ => ⟨memGet_of_readWords h hword, rfl⟩⟩

/-- The payload depends on the function, the count, the base and the buffer words alone. -/
theorem requestPayload_congr {s s' : State} (hfunc : s'.dFunc = s.dFunc) (hcount : s'.dCount = s.dCount)
    (hbase : s'.dBase = s.dBase) (hcfg : s'.cfg = s.cfg) (hmem : ∀ a, memGet s'.bufMem a = memGet s.bufMem a) :
    requestPayload s' = requestPayload s := by
  rw [requestPayload, requestPayload, hfunc, hcount, hbase, hcfg, readWords_congr hcfg hmem]

/-- The payload of function 15 (R110, R112). -/
theorem requestPayload_coils {s : State} {p : List Byte} (hp : requestPayload s = .ok p) (hfunc : s.dFunc = 15#8) :
    ∃ ws, readWords s s.dBase.toNat (bufferWords s.cfg.coilLayout 15#8 s.dCount.toNat) = .ok ws ∧
      p = BitVec.ofNat 8 ((s.dCount.toNat + 7) / 8) :: packCoils s.cfg.coilLayout ws s.dCount.toNat := by
  rcases requestPayload_ok hp with ⟨hw, -⟩ | ⟨-, ws, hr, rfl⟩
  · rw [hfunc] at hw
    exact absurd hw (by decide)
  · rw [hfunc] at hr ⊢
    exact ⟨ws, hr, rfl⟩

/-- The payload of function 16 (R111, R113). -/
theorem requestPayload_registers {s : State} {p : List Byte} (hp : requestPayload s = .ok p) (hfunc : s.dFunc = 16#8) :
    ∃ ws, readWords s s.dBase.toNat s.dCount.toNat = .ok ws ∧
      p = BitVec.ofNat 8 (2 * s.dCount.toNat) :: packWords ws := by
  rcases requestPayload_ok hp with ⟨hw, -⟩ | ⟨-, ws, hr, rfl⟩
  · rw [hfunc] at hw
    exact absurd hw (by decide)
  · rw [hfunc] at hr ⊢
    exact ⟨ws, hr, rfl⟩

/-- Functions 1 to 4 have no payload (R106 to R109). -/
theorem requestPayload_read {s : State} {p : List Byte} (hp : requestPayload s = .ok p) (hw : isWrite s.dFunc = false) :
    p = [] := by
  rcases requestPayload_ok hp with ⟨-, rfl⟩ | ⟨hw', -⟩
  · rfl
  · simp [hw] at hw'

/-! ### The request forms (log entry 1) -/

/-- A request form is BUILD of its frame: the descriptor it is checked with is in the frame, and beside the descriptor's
check only its derived fields decide whether it is well formed (R62, R63). -/
theorem exec_of_encode_request {i : Instr} {fr : List Byte} (h : encode i = .request fr) :
    ∃ ok, i.wellFormed = (validDesc (fr.getD 0 0) (fr.getD 1 0) (joinBytes (fr.getD 4 0) (fr.getD 5 0)) && ok) ∧
      ∀ s, exec i s =
        buildForm (fr.getD 0 0) (fr.getD 1 0) (joinBytes (fr.getD 4 0) (fr.getD 5 0)) ok fr s := by
  have hcount (slave f : Byte) (addr count : Word) (rest : List Byte) :
      joinBytes ((requestHead slave f addr count ++ rest).getD 4 0) ((requestHead slave f addr count ++ rest).getD 5 0) =
        count := joinBytes_hiByte_loByte count
  cases i <;> cases h
  case reqForceMultipleCoils | reqPresetMultipleRegisters =>
    rw [writeRequestBytes, List.append_assoc, hcount]
    exact ⟨_, rfl, fun _ => rfl⟩
  case reqReadCoilStatus | reqReadInputStatus | reqReadHoldingRegisters | reqReadInputRegisters =>
    rw [readRequestBytes, hcount]
    exact ⟨_, rfl, fun _ => rfl⟩

/-- A well-formed request form has a legal descriptor, and it is BUILD of its frame with every derived field right. -/
theorem exec_of_encode_request_of_wellFormed {i : Instr} {fr : List Byte} (h : encode i = .request fr)
    (hwf : i.wellFormed = true) :
    validDesc (fr.getD 0 0) (fr.getD 1 0) (joinBytes (fr.getD 4 0) (fr.getD 5 0)) = true ∧
      ∀ s, exec i s =
        buildForm (fr.getD 0 0) (fr.getD 1 0) (joinBytes (fr.getD 4 0) (fr.getD 5 0)) true fr s := by
  obtain ⟨ok, hok, hexec⟩ := exec_of_encode_request h
  rw [hok, Bool.and_eq_true] at hwf
  obtain ⟨hv, rfl⟩ := hwf
  exact ⟨hv, hexec⟩

/-- The frame of a well-formed request form fits `TXBUF` (R70). -/
theorem length_le_of_encode_request {i : Instr} {fr : List Byte} (h : encode i = .request fr)
    (hwf : i.wellFormed = true) : fr.length ≤ 128 := by
  cases i <;> cases h
  case reqForceMultipleCoils | reqPresetMultipleRegisters => exact (Laws.FrameLength.writeRequest_fits rfl hwf).2
  case reqReadCoilStatus | reqReadInputStatus | reqReadHoldingRegisters | reqReadInputRegisters =>
    exact (by decide : 8 ≤ 128)

/-! ### The request form of a built frame -/

/-- The head of a legal read descriptor with its CRC is the frame of a well-formed read request (R62). -/
theorem exists_readRequest {slave f : Byte} (addr : Word) {count : Word} (hv : validDesc slave f count = true)
    (hr : isRead f = true) :
    ∃ i : Instr, i.wellFormed = true ∧ encode i = .request (crcFrame (requestHead slave f addr count)) := by
  have hwf : readRequestWf slave f addr count (crc16 (requestHead slave f addr count)) = true := by
    simp [readRequestWf, readRequestOk, hv]
  rcases (isRead_iff f).1 hr with rfl | rfl | rfl | rfl
  · exact ⟨.reqReadCoilStatus slave addr count _, hwf, rfl⟩
  · exact ⟨.reqReadInputStatus slave addr count _, hwf, rfl⟩
  · exact ⟨.reqReadHoldingRegisters slave addr count _, hwf, rfl⟩
  · exact ⟨.reqReadInputRegisters slave addr count _, hwf, rfl⟩

/-- Packed points leave the bits past `count` of the last byte 0 (R112). -/
theorem coilPaddingClear_packCoils (layout : CoilLayout) (ws : List Word) {n : Nat} (hn : 1 ≤ n) :
    coilPaddingClear n (packCoils layout ws n) = true := by
  have hbytes : dataBytes fcForceMultipleCoils n = (n + 7) / 8 := rfl
  rw [coilPaddingClear, hbytes, beq_iff_eq]
  apply BitVec.eq_of_getLsbD_eq
  intro i hi
  rw [BitVec.getLsbD_ushiftRight, BitVec.getLsbD_zero]
  by_cases h8 : n - 8 * ((n + 7) / 8 - 1) + i < 8
  · have hbit := packCoils_bit layout ws n (n + i) (by omega)
    rw [show (n + i) / 8 = (n + 7) / 8 - 1 by omega,
      show (n + i) % 8 = n - 8 * ((n + 7) / 8 - 1) + i by omega] at hbit
    rw [hbit]
    simp
  · exact BitVec.getLsbD_of_ge _ _ (by omega)

/-- The head of a legal write descriptor, data of its length and padding, their byte count and the CRC are the frame of a
well-formed write request (R63, R112). -/
theorem exists_writeRequest {slave f : Byte} (addr : Word) {count : Word} {data : List Byte}
    (hv : validDesc slave f count = true) (hw : isWrite f = true) (hlen : data.length = dataBytes f count.toNat)
    (hpad : f = 15#8 → coilPaddingClear count.toNat data = true) :
    ∃ i : Instr, i.wellFormed = true ∧ encode i = .request
      (crcFrame (requestHead slave f addr count ++ (BitVec.ofNat 8 (dataBytes f count.toNat) :: data))) := by
  have hbyte : dataBytes f count.toNat < 256 := by
    have := (validDesc_bounds hv).2.1
    omega
  have hwf : writeRequestWf slave f addr count (BitVec.ofNat 8 (dataBytes f count.toNat)) data
      (crc16 (requestHead slave f addr count ++ (BitVec.ofNat 8 (dataBytes f count.toNat) :: data))) = true := by
    simpa [writeRequestWf, writeRequestOk, hv, hlen, Nat.mod_eq_of_lt hbyte, fcForceMultipleCoils, ← imp_iff_not_or]
      using hpad
  rcases (isWrite_iff f).1 hw with rfl | rfl
  · exact ⟨.reqForceMultipleCoils slave addr count _ data _, hwf, rfl⟩
  · exact ⟨.reqPresetMultipleRegisters slave addr count _ data _, hwf, rfl⟩

/-- Every frame BUILD makes is the frame of a well-formed request form (R106 to R111). -/
theorem exists_requestForm {s : State} {p : List Byte} (hp : requestPayload s = .ok p)
    (hv : validDesc s.dSlave s.dFunc s.dCount = true) :
    ∃ i : Instr, i.wellFormed = true ∧ encode i = .request (builtFrame s p) := by
  obtain ⟨-, hsupported, -, hcount, -⟩ := validDesc_parts hv
  rcases requestPayload_ok hp with ⟨hw, rfl⟩ | ⟨hw, ws, hr, rfl⟩
  · have hread : isRead s.dFunc = true := by simpa [isSupported, hw] using hsupported
    exact exists_readRequest s.dAddr hv hread
  · refine exists_writeRequest s.dAddr hv hw (requestData_length hw (readWords_ok.1 hr).1) fun h15 => ?_
    rw [h15]
    exact coilPaddingClear_packCoils _ ws hcount

end Sys2Proof.Machine

section
open Sys2Proof Sys2Proof.Machine

/-- Settles O21: a read has no payload, and its slave is no broadcast. -/
theorem buildOfAReadEmitsTheRequest : Obligations.BuildOfAReadEmitsTheRequest := by
  intro s hf hl hv hfunc
  have hw := isWrite_of_isRead ((isRead_iff _).2 hfunc)
  obtain ⟨p, hp, hfit, hb⟩ := exec_build_of_ready ⟨hf, hl, hv, by simp [hw]⟩
  obtain rfl := requestPayload_read hp hw
  obtain ⟨-, -, hbroadcast, -, -⟩ := validDesc_parts hv
  have hslave : s.dSlave ≠ 0#8 := fun h0 => by simp [hbroadcast h0] at hw
  obtain ⟨hres, hexp, hexc⟩ := emitRequest_newTransaction (builtFrame s []) s.dSlave s
  exact ⟨_, _, hb, rfl, emitRequest_txBytes _ _ _ hfit, rfl, hres, hexp.trans (if_neg hslave), hexc⟩

/-- Settles O22: the data bit of each point is the point of the words read, which are the buffer's. -/
theorem buildOfCoilsPacksThePoints : Obligations.BuildOfCoilsPacksThePoints := by
  intro s hready hfunc
  obtain ⟨p, hp, hfit, hb⟩ := exec_build_of_ready hready
  obtain ⟨ws, hr, rfl⟩ := requestPayload_coils hp hfunc
  have hbit := packCoils_bit s.cfg.coilLayout ws s.dCount.toNat
  refine ⟨_, _, packCoils s.cfg.coilLayout ws s.dCount.toNat, hb, ?_, emitRequest_txBytes _ _ _ hfit,
    packCoils_length _ _ _, fun k hn hk => ?_, fun k hk => ?_, emitRequest_newTransaction _ _ _⟩
  · rw [hfunc]
    rfl
  · rw [packCoils_length] at hk
    rw [hbit k hk]
    simp [hn]
  · rw [hbit k (by omega), decide_eq_true hk, Bool.true_and]
    exact wordsPoint_of_readWords hr hk

/-- Settles O23: the data bytes are those of the words read, which are the buffer's. -/
theorem buildOfRegistersPacksTheWords : Obligations.BuildOfRegistersPacksTheWords := by
  intro s hready hfunc
  obtain ⟨p, hp, hfit, hb⟩ := exec_build_of_ready hready
  obtain ⟨ws, hr, rfl⟩ := requestPayload_registers hp hfunc
  have hlen : ws.length = s.dCount.toNat := (readWords_ok.1 hr).1
  refine ⟨_, _, packWords ws, hb, ?_, emitRequest_txBytes _ _ _ hfit, ?_, fun k hk => ?_,
    emitRequest_newTransaction _ _ _⟩
  · rw [hfunc]
    rfl
  · rw [packWords_length, hlen]
  · exact ⟨ws.getD k 0, memGet_of_readWords hr hk, packWords_word ws k (by rwa [hlen])⟩

/-- Settles O25: the state after is the emitted frame's, since a faulted end is excluded. -/
theorem buildFrame : Obligations.BuildFrame := by
  intro s t h ht
  obtain ⟨-, -, p, -, hfit, rfl⟩ := exec_build_next h ht
  obtain ⟨hres, hexp, hclass, hcode⟩ := emitRequest_newTransaction (builtFrame s p) s.dSlave s
  obtain ⟨hovf, hfault, hreserved⟩ := emitRequest_statusKept (builtFrame s p) s.dSlave s
  refine ⟨rfl, fun k hk hlen => ?_, hres, hclass, hcode, hexp, hovf, hfault, hreserved, fun _ => rfl⟩
  rw [emitRequest_txLen_toNat _ _ hfit] at hlen
  exact emitRequest_txBuf_of_ge _ _ hk hlen

/-- Settles O26, with the length of a built frame function by function. -/
theorem builtFramesFitTheBuffer : Obligations.BuiltFramesFitTheBuffer := by
  intro s t h _ ht
  obtain ⟨-, -, p, hp, hfit, rfl⟩ := exec_build_next h ht
  rw [emitRequest_txBytes _ _ _ hfit, emitRequest_txLen_toNat _ _ hfit]
  exact ⟨builtFrame_length hp, hfit, rfl⟩

/-- Settles O27: equal registers and buffer words give equal payloads, so equal frames. -/
theorem buildDependsOnDescriptorAndBufferAlone : Obligations.BuildDependsOnDescriptorAndBufferAlone := by
  intro s s' t t' hslave hfunc haddr hcount hbase hcfg hmem _ _ h h' ht ht'
  obtain ⟨-, -, p, hp, hfit, rfl⟩ := exec_build_next h ht
  obtain ⟨-, -, p', hp', hfit', rfl⟩ := exec_build_next h' ht'
  rw [requestPayload_congr hfunc hcount hbase hcfg hmem, hp, Except.ok.injEq] at hp'
  rw [emitRequest_txBytes _ _ _ hfit, emitRequest_txBytes _ _ _ hfit', builtFrame, builtFrame, hslave, hfunc, haddr,
    hcount, hp']

/-- Settles O28: a request form is BUILD of its frame, which passes the checks here. -/
theorem requestFormsEmitTheirFrame : Obligations.RequestFormsEmitTheirFrame := by
  intro i fr s henc hwf hf hl hrange
  obtain ⟨hv, hexec⟩ := exec_of_encode_request_of_wellFormed henc hwf
  have hfit := length_le_of_encode_request henc hwf
  have hc : buildCheck s (fr.getD 0 0) (fr.getD 1 0) (joinBytes (fr.getD 4 0) (fr.getD 5 0)) = .ok () :=
    buildCheck_ok.2 ⟨hl, hv, fun hw => (bufferInRange_iff _ _ _).2 (hrange ((isWrite_iff _).1 hw))⟩
  obtain ⟨hres, hexp, hclass, hcode⟩ := emitRequest_newTransaction fr (fr.getD 0 0) s
  exact ⟨_, (hexec s).trans (buildForm_ok hf hc), emitRequest_txBytes _ _ _ hfit, emitRequest_txLen_toNat _ _ hfit, hres,
    hexp, hclass, hcode, rfl, fun _ hk hlen => emitRequest_txBuf_of_ge _ _ hk hlen, emitRequest_statusKept _ _ _⟩

/-- Settles O29: the form of the built frame is checked with the descriptor BUILD was checked with. -/
theorem buildRunsItsRequestForm : Obligations.BuildRunsItsRequestForm := by
  intro s t h _ ht
  obtain ⟨hf, hc, p, hp, hfit, rfl⟩ := exec_build_next h ht
  obtain ⟨i, hwf, henc⟩ := exists_requestForm hp (buildCheck_ok.1 hc).2.1
  have hexec : exec i s =
      buildForm s.dSlave s.dFunc (joinBytes (hiByte s.dCount) (loByte s.dCount)) true (builtFrame s p) s :=
    (exec_of_encode_request_of_wellFormed henc hwf).2 s
  refine ⟨i, hwf, ?_, ?_⟩
  · rw [emitRequest_txBytes _ _ _ hfit, henc]
  · rw [hexec, joinBytes_hiByte_loByte, buildForm_ok hf hc]

end

/-! Lemmas and proofs of the statements about the deserializer (spec/43_deserializer.md): the checks of VALIDATE, its
verdict as one list of checks in the order of R156, and what a judged response leaves behind. -/
namespace Sys2Proof.Machine

/-! ### The receive buffer (R123, R124) -/

/-- RX_CLEAR leaves every field of `STATUS` but `RX_OVF` and `RESULT` alone (R123). -/
theorem rxCleared_statusKept (s : State) :
    (rxCleared s).expectRsp = s.expectRsp ∧ (rxCleared s).excClassField = s.excClassField ∧
      (rxCleared s).excCode = s.excCode ∧ FaultFieldsKept s (rxCleared s) ∧ ReservedKept s (rxCleared s) := by
  have hreserved : ReservedKept s (rxCleared s) := (setRxOvf_reservedKept 0 s).trans (setResult_reservedKept .none _)
  have hlen : ({ s with rxLen := 0 } : State).status = s.status := rfl
  refine ⟨?_, ?_, ?_, ⟨?_, ?_⟩, hreserved⟩
  · simpa [rxCleared] using State.expectRsp_of_status hlen
  · simpa [rxCleared] using State.excClassField_of_status hlen
  · simpa [rxCleared] using State.excCode_of_status hlen
  · simpa [rxCleared] using State.faultFlag_of_status hlen
  · simpa [rxCleared] using State.faultCause_of_status hlen

/-- A discarded byte leaves every field of `STATUS` but `RX_OVF` alone (R124). -/
theorem setRxOvf_statusKept (b : BitVec 1) (s : State) :
    (s.setRxOvf b).result = s.result ∧ (s.setRxOvf b).expectRsp = s.expectRsp ∧
      (s.setRxOvf b).excClassField = s.excClassField ∧ (s.setRxOvf b).excCode = s.excCode ∧
      FaultFieldsKept s (s.setRxOvf b) ∧ ReservedKept s (s.setRxOvf b) :=
  ⟨by simp, by simp, by simp, by simp, by simp [FaultFieldsKept], setRxOvf_reservedKept b s⟩

/-- A received byte is stored at `RXBUF[RXLEN]` and leaves the others alone (R124). -/
theorem pushed_rxBuf_getElem {s : State} (b : Byte) (hl : s.rxLen.toNat < 128) {k : Nat} (hk : k < 128) :
    (pushed s b).rxBuf[k] = if k = s.rxLen.toNat then b else s.rxBuf[k] := by
  simp [pushed_of_lt b hl, Vector.getElem_setIfInBounds, eq_comm]

/-- A shorter `RXLEN` leaves the first bytes received (R29). -/
theorem rxBytes_withRxLen {s : State} {m : Nat} (h : m ≤ s.rxBytes.length) :
    ({ s with rxLen := BitVec.ofNat 8 m } : State).rxBytes = s.rxBytes.take m := by
  rw [rxBytes_length] at h
  have hm : (BitVec.ofNat 8 m).toNat = m := by
    rw [BitVec.toNat_ofNat]
    omega
  rw [State.rxBytes, State.rxBytes, List.take_take, hm, min_eq_left (by omega)]

/-! ### The checks of VALIDATE (R126) -/

/-- VALIDATE finds no descriptor. -/
theorem validateCheck_of_not_descLoaded {s : State} (hl : s.descLoaded = false) : validateCheck s = .error .noDesc := by
  simp [validateCheck, hl]

/-- VALIDATE refuses a broadcast. -/
theorem validateCheck_of_broadcast {s : State} (hl : s.descLoaded = true)
    (hv : validDesc s.dSlave s.dFunc s.dCount = true) (h0 : s.dSlave = 0#8) : validateCheck s = .error .badDesc := by
  rw [h0] at hv
  simp [validateCheck, hl, hv, h0]

/-- VALIDATE finds the words of a read out of range. -/
theorem validateCheck_of_not_bufferFits {s : State} (hl : s.descLoaded = true)
    (hv : validDesc s.dSlave s.dFunc s.dCount = true) (h0 : s.dSlave ≠ 0#8) (hr : isRead s.dFunc = true)
    (hfits : ¬ BufferFits s) : validateCheck s = .error .bufRange := by
  have hrange : bufferInRange s s.dFunc s.dCount = false := decide_eq_false hfits
  simp [validateCheck, hl, hv, h0, hr, hrange]

/-- VALIDATE of received bytes gives its verdict when the block is ready for it. -/
theorem judgeFrame_of_ready {s : State} (r : List Byte) (h : ValidateReady s) :
    judgeFrame r s = .next (judgedState r s) := by
  obtain ⟨hf, hl, hv, h0, hfits⟩ := h
  exact judgeFrame_eq_judgedState r hf
    (validateCheck_ok.2 ⟨hl, hv, h0, fun hr => (bufferInRange_iff _ _ _).2 (hfits hr)⟩)

theorem exec_validate_of_ready {s : State} (h : ValidateReady s) :
    exec .validate s = .next (judgedState s.rxBytes s) := judgeFrame_of_ready s.rxBytes h

/-- A response form is VALIDATE of its bytes (log entry 1). -/
theorem exec_of_encode_response {i : Instr} {r : List Byte} (h : encode i = .response r) (s : State) :
    exec i s = judgeFrame r s := by
  cases i <;> cases h <;> rfl

/-! ### The verdict, check by check (R156) -/

/-- The length the bytes `r` should have by their function byte: that of an exception response, or that of a normal response
to function `f` with count `n` (R127, R128). -/
def expectedLength (r : List Byte) (f : Byte) (n : Nat) : Nat :=
  if r.getD 1 0 = f ||| excFlag then excLen else rspLen f n

/-- The verdict on a response that passed every check of its frame (R131, R133, R140). -/
def contentVerdict (r : List Byte) (s : State) : Verdict :=
  if r.getD 1 0 = s.dFunc ||| excFlag then .exception
  else if isRead s.dFunc = true then checkRead r s.dFunc s.dCount.toNat
  else checkEcho r s.dAddr s.dCount

theorem two_le_expectedLength (r : List Byte) (f : Byte) (n : Nat) : 2 ≤ expectedLength r f n := by
  unfold expectedLength rspLen
  split_ifs
  · decide
  · omega
  · decide

/-- Shape selection as one list of checks: whether the bytes answer the function comes before their length. -/
theorem shape_eq (r : List Byte) (f : Byte) (n : Nat) :
    shape r f n =
      if r.length < 2 then .verdict .incomplete
      else if r.getD 1 0 ≠ f ∧ r.getD 1 0 ≠ f ||| excFlag then .verdict .frameError
      else if r.length < expectedLength r f n then .verdict .incomplete
      else if expectedLength r f n < r.length then .verdict .frameError
      else .pending (r.getD 1 0 == f ||| excFlag) := by
  rw [shape, expectedLength]
  refine if_congr Iff.rfl rfl ?_
  by_cases hexc : r.getD 1 0 = f ||| excFlag
  · rw [hexc, beq_self_eq_true, if_pos rfl, if_neg (fun h => h.2 rfl), if_pos rfl, lengthShape]
  · rw [beq_eq_false_iff_ne.2 hexc, if_neg Bool.false_ne_true, if_neg hexc]
    by_cases hnormal : r.getD 1 0 = f
    · rw [if_pos (beq_iff_eq.2 hnormal), if_neg (fun h => h.1 hnormal), lengthShape]
    · rw [if_neg (mt beq_iff_eq.1 hnormal), if_pos ⟨hnormal, hexc⟩]

/-- The verdict as one list of checks: it branches on the guards of shape selection, then on its own. -/
theorem verdict_eq (r : List Byte) (s : State) :
    verdict r s =
      if s.rxOvf = 1#1 then .frameError
      else if r.length < 2 then .incomplete
      else if r.getD 1 0 ≠ s.dFunc ∧ r.getD 1 0 ≠ s.dFunc ||| excFlag then .frameError
      else if r.length < expectedLength r s.dFunc s.dCount.toNat then .incomplete
      else if expectedLength r s.dFunc s.dCount.toNat < r.length then .frameError
      else if crc16 (r.take (r.length - 2)) ≠ crcField r then .frameError
      else if r.getD 0 0 ≠ s.dSlave then .frameError
      else contentVerdict r s := by
  rw [verdict, shape_eq]
  split_ifs <;> simp_all [crcOk, contentVerdict]

/-- The verdict on a frame of the expected length that passed every check of its frame. -/
theorem verdict_of_checked {r : List Byte} {s : State} (hovf : s.rxOvf = 0#1)
    (hfunc : r.getD 1 0 = s.dFunc ∨ r.getD 1 0 = s.dFunc ||| excFlag)
    (hlen : r.length = expectedLength r s.dFunc s.dCount.toNat) (hcrc : crcOk r = true) (hslave : r.getD 0 0 = s.dSlave) :
    verdict r s = contentVerdict r s := by
  have h2 := two_le_expectedLength r s.dFunc s.dCount.toNat
  have hcrc' : crc16 (r.take (r.length - 2)) = crcField r := eq_of_beq hcrc
  rw [verdict_eq, if_neg (by simp [hovf]), if_neg (by omega), if_neg (by tauto), if_neg (by omega), if_neg (by omega),
    if_neg (not_not.2 hcrc'), if_neg (not_not.2 hslave)]

/-- The first bytes of a frame of the expected length, short of all of them, are incomplete (R128, R143). -/
theorem verdict_take_of_lt {r : List Byte} {s : State} {m : Nat} (hovf : s.rxOvf ≠ 1#1)
    (hfunc : r.getD 1 0 = s.dFunc ∨ r.getD 1 0 = s.dFunc ||| excFlag)
    (hlen : r.length = expectedLength r s.dFunc s.dCount.toNat) (hm : m < r.length) :
    verdict (r.take m) s = .incomplete := by
  have htake : (r.take m).length = m := by
    rw [List.length_take]
    omega
  rw [verdict_eq, if_neg hovf, htake]
  by_cases h2 : m < 2
  · rw [if_pos h2]
  · have hbyte : (r.take m).getD 1 0 = r.getD 1 0 := by
      simp [List.getElem?_take_of_lt (show 1 < m by omega)]
    rw [if_neg h2, expectedLength, hbyte, if_neg (by tauto), ← expectedLength, if_pos (by omega)]

theorem contentVerdict_ne_none (r : List Byte) (s : State) : contentVerdict r s ≠ .none := by
  unfold contentVerdict checkRead checkEcho
  split_ifs <;> decide

/-- A response that is accepted, as a success or as an exception, has no overflow, the right function byte and the expected
length. -/
theorem checked_of_accepted {r : List Byte} {s : State} (h : verdict r s = .success ∨ verdict r s = .exception) :
    s.rxOvf ≠ 1#1 ∧ (r.getD 1 0 = s.dFunc ∨ r.getD 1 0 = s.dFunc ||| excFlag) ∧
      r.length = expectedLength r s.dFunc s.dCount.toNat := by
  rw [verdict_eq] at h
  split_ifs at h with hovf h2 hfunc hshort hlong
  case neg => exact ⟨hovf, by tauto, by omega⟩
  all_goals simp at h

/-- VALIDATE always finds one of the four verdicts (R20, R126). -/
theorem verdict_ne_none (r : List Byte) (s : State) : verdict r s ≠ .none := by
  rw [verdict_eq]
  split_ifs
  case neg => exact contentVerdict_ne_none r s
  all_goals decide

/-! ### Normal responses and exception responses -/

/-- A supported function's byte is not that of its exception response (R61). -/
theorem ne_or_excFlag {f : Byte} (h : isSupported f = true) : f ≠ f ||| excFlag := by
  rcases (isSupported_iff f).1 h with rfl | rfl | rfl | rfl | rfl | rfl <;> decide

section
variable {r : List Byte} {s : State}

/-- The verdict on a well-checked normal response (R129, R130). -/
theorem verdict_of_normal (hovf : s.rxOvf = 0#1) (hf : isSupported s.dFunc = true) (hfunc : r.getD 1 0 = s.dFunc)
    (hlen : r.length = rspLen s.dFunc s.dCount.toNat) (hcrc : crcOk r = true) (hslave : r.getD 0 0 = s.dSlave) :
    verdict r s = if isRead s.dFunc = true then checkRead r s.dFunc s.dCount.toNat
      else checkEcho r s.dAddr s.dCount := by
  have hexc : ¬ r.getD 1 0 = s.dFunc ||| excFlag := by
    rw [hfunc]
    exact ne_or_excFlag hf
  rw [verdict_of_checked hovf (.inl hfunc) (by rw [expectedLength, if_neg hexc, hlen]) hcrc hslave, contentVerdict,
    if_neg hexc]

/-- A well-checked read response with the byte count of the request is a success (R133). -/
theorem verdict_of_read (hovf : s.rxOvf = 0#1) (hr : isRead s.dFunc = true) (hfunc : r.getD 1 0 = s.dFunc)
    (hlen : r.length = 5 + dataBytes s.dFunc s.dCount.toNat) (hcrc : crcOk r = true) (hslave : r.getD 0 0 = s.dSlave)
    (hcount : (r.getD 2 0).toNat = dataBytes s.dFunc s.dCount.toNat) : verdict r s = .success := by
  have hf : isSupported s.dFunc = true := by simp [isSupported, hr]
  rw [verdict_of_normal hovf hf hfunc (by rw [rspLen, if_pos hr, hlen]) hcrc hslave, if_pos hr, checkRead,
    if_pos (beq_iff_eq.2 hcount)]

/-- A well-checked write confirmation is judged by its echo (R140, R141). -/
theorem verdict_of_confirmation (hovf : s.rxOvf = 0#1) (hw : isWrite s.dFunc = true) (hfunc : r.getD 1 0 = s.dFunc)
    (hlen : r.length = 8) (hcrc : crcOk r = true) (hslave : r.getD 0 0 = s.dSlave) :
    verdict r s = checkEcho r s.dAddr s.dCount := by
  have hf : isSupported s.dFunc = true := by simp [isSupported, hw]
  have hr : ¬ isRead s.dFunc = true := fun hr => by simp [isWrite_of_isRead hr] at hw
  rw [verdict_of_normal hovf hf hfunc (by rw [rspLen, if_neg hr, hlen]) hcrc hslave, if_neg hr]

/-- A well-checked exception response is an exception (R131). -/
theorem verdict_of_exception (hovf : s.rxOvf = 0#1) (hfunc : r.getD 1 0 = s.dFunc ||| excFlag) (hlen : r.length = 5)
    (hcrc : crcOk r = true) (hslave : r.getD 0 0 = s.dSlave) : verdict r s = .exception := by
  rw [verdict_of_checked hovf (.inr hfunc) (by rw [expectedLength, if_pos hfunc, hlen, excLen]) hcrc hslave,
    contentVerdict, if_pos hfunc]

end

/-- The echo check on a confirmation's bytes compares its fields (R65, R140). -/
theorem checkEcho_writeResponseBytes (slave f : Byte) (addr count crc addr' count' : Word) :
    checkEcho (writeResponseBytes slave f addr count crc) addr' count' =
      if addr = addr' ∧ count = count' then .success else .frameError := by
  simp [checkEcho, writeResponseBytes, requestHead]

/-! ### The rules' own numbers (R69, R128) -/

theorem dataBytes_points {f : Byte} (n : Nat) (h : f = 1#8 ∨ f = 2#8) : dataBytes f n = (n + 7) / 8 := by
  rcases h with rfl | rfl <;> rfl

theorem dataBytes_registers {f : Byte} (n : Nat) (h : f = 3#8 ∨ f = 4#8) : dataBytes f n = 2 * n := by
  rcases h with rfl | rfl <;> rfl

theorem bufferWords_onePerWord (f : Byte) (n : Nat) : bufferWords .onePerWord f n = n := by
  simp [bufferWords]

theorem bufferWords_packed16_points {f : Byte} (n : Nat) (h : f = 1#8 ∨ f = 2#8) :
    bufferWords .packed16 f n = (n + 15) / 16 := by
  rcases h with rfl | rfl <;> rfl

theorem bufferWords_registers (layout : CoilLayout) {f : Byte} (n : Nat) (h : f = 3#8 ∨ f = 4#8) :
    bufferWords layout f n = n := by
  rcases h with rfl | rfl <;> rfl

/-- The words a successful read of points writes (R134, R135). -/
theorem responseWords_points (layout : CoilLayout) {f : Byte} (r : List Byte) (n : Nat) (h : f = 1#8 ∨ f = 2#8) :
    responseWords layout f r n = unpackCoils layout r n := if_pos ((isReadPoints_iff f).2 h)

/-- The words a successful read of registers writes (R136, R137). -/
theorem responseWords_registers (layout : CoilLayout) {f : Byte} (r : List Byte) (n : Nat) (h : f = 3#8 ∨ f = 4#8) :
    responseWords layout f r n = unpackWords r n := by
  rcases h with rfl | rfl <;> rfl

theorem isRead_iff_points_or_registers (f : Byte) :
    isRead f = true ↔ (f = 1#8 ∨ f = 2#8) ∨ f = 3#8 ∨ f = 4#8 := by
  rw [isRead_iff, or_assoc]

/-- The length of a normal response (R128). -/
theorem rspLen_eq (f : Byte) (n : Nat) :
    rspLen f n = if f = 1#8 ∨ f = 2#8 then 5 + (n + 7) / 8 else if f = 3#8 ∨ f = 4#8 then 5 + 2 * n else 8 := by
  rw [rspLen]
  by_cases hp : f = 1#8 ∨ f = 2#8
  · rw [if_pos hp, if_pos ((isRead_iff_points_or_registers f).2 (.inl hp)), dataBytes_points n hp]
  · rw [if_neg hp]
    by_cases hr : f = 3#8 ∨ f = 4#8
    · rw [if_pos hr, if_pos ((isRead_iff_points_or_registers f).2 (.inr hr)), dataBytes_registers n hr]
    · rw [if_neg hr, if_neg (fun h => ((isRead_iff_points_or_registers f).1 h).elim hp hr)]

/-! ### The codes of `STATUS` -/

theorem verdictCode_injective : Function.Injective verdictCode := by
  intro v w
  cases v <;> cases w <;> decide

theorem verdictCode_of_ne_none {v : Verdict} (h : v ≠ .none) :
    verdictCode v = 1#3 ∨ verdictCode v = 2#3 ∨ verdictCode v = 3#3 ∨ verdictCode v = 4#3 := by
  revert h
  cases v <;> decide

/-- The code of the verdict on a response's content, in the rules' own numbers (R131, R133, R140). -/
theorem verdictCode_contentVerdict (r : List Byte) (s : State) :
    verdictCode (contentVerdict r s) =
      if r.getD 1 0 = s.dFunc ||| 0x80#8 then 2#3
      else if s.dFunc = 1#8 ∨ s.dFunc = 2#8 then (if (r.getD 2 0).toNat = (s.dCount.toNat + 7) / 8 then 1#3 else 3#3)
      else if s.dFunc = 3#8 ∨ s.dFunc = 4#8 then (if (r.getD 2 0).toNat = 2 * s.dCount.toNat then 1#3 else 3#3)
      else if joinBytes (r.getD 2 0) (r.getD 3 0) = s.dAddr ∧ joinBytes (r.getD 4 0) (r.getD 5 0) = s.dCount then 1#3
      else 3#3 := by
  rw [contentVerdict, apply_ite verdictCode, apply_ite verdictCode]
  refine if_congr Iff.rfl rfl ?_
  by_cases hp : s.dFunc = 1#8 ∨ s.dFunc = 2#8
  · rw [if_pos hp, if_pos ((isRead_iff_points_or_registers _).2 (.inl hp)), checkRead, apply_ite verdictCode,
      dataBytes_points _ hp]
    exact if_congr beq_iff_eq rfl rfl
  · rw [if_neg hp]
    by_cases hr : s.dFunc = 3#8 ∨ s.dFunc = 4#8
    · rw [if_pos hr, if_pos ((isRead_iff_points_or_registers _).2 (.inr hr)), checkRead, apply_ite verdictCode,
        dataBytes_registers _ hr]
      exact if_congr beq_iff_eq rfl rfl
    · rw [if_neg hr, if_neg (fun h => ((isRead_iff_points_or_registers _).1 h).elim hp hr), checkEcho,
        apply_ite verdictCode]
      exact if_congr (by rw [Bool.and_eq_true, beq_iff_eq, beq_iff_eq]) rfl rfl

/-- The class of an exception code (R24). -/
theorem excClass_eq (code : Byte) :
    excClass code = if code = 1#8 then 0#2 else if code = 2#8 then 1#2 else if code = 3#8 then 2#2 else 3#2 := by
  unfold excClass
  split <;> simp_all [BitVec.toNat_eq]

/-! ### What a judged response leaves behind -/

/-- VALIDATE writes `STATUS` and `BUFMEM` alone (R125). -/
theorem judgedState_eq (r : List Byte) (s : State) :
    judgedState r s = { s with status := (judgedState r s).status, bufMem := (judgedState r s).bufMem } := by
  unfold judgedState recordVerdict
  split_ifs <;> rfl

theorem judgedState_result (r : List Byte) (s : State) : (judgedState r s).result = verdictCode (verdict r s) :=
  recordVerdict_result (verdict r s) r s

theorem judgedState_excCode (r : List Byte) (s : State) :
    (judgedState r s).excCode = if verdict r s = .exception then r.getD 2 0 else 0 :=
  recordVerdict_excCode (verdict r s) r s

theorem judgedState_excClassField (r : List Byte) (s : State) :
    (judgedState r s).excClassField = if verdict r s = .exception then excClass (r.getD 2 0) else 0 :=
  recordVerdict_excClassField (verdict r s) r s

/-- VALIDATE leaves `RX_OVF`, `EXPECT_RSP`, the fault fields and the reserved bits of `STATUS` alone. -/
theorem judgedState_statusKept (r : List Byte) (s : State) :
    (judgedState r s).rxOvf = s.rxOvf ∧ (judgedState r s).expectRsp = s.expectRsp ∧
      FaultFieldsKept s (judgedState r s) ∧ ReservedKept s (judgedState r s) :=
  ⟨judgedState_rxOvf r s, recordVerdict_expectRsp (verdict r s) r s,
    ⟨recordVerdict_faultFlag (verdict r s) r s, recordVerdict_faultCause (verdict r s) r s⟩,
    recordVerdict_reservedKept (verdict r s) r s⟩

/-- The exception fields are 0 after any other verdict (R24, R25). -/
theorem judgedState_excFields_of_ne {r : List Byte} {s : State} (h : verdict r s ≠ .exception) :
    (judgedState r s).excClassField = 0#2 ∧ (judgedState r s).excCode = 0#8 := by
  rw [judgedState_excClassField, judgedState_excCode, if_neg h, if_neg h]
  exact ⟨rfl, rfl⟩

/-- The fields of `STATUS` after a success (R20, R24, R25). -/
theorem judgedState_fields_of_success {r : List Byte} {s : State} (h : verdict r s = .success) :
    (judgedState r s).result = 1#3 ∧ (judgedState r s).excClassField = 0#2 ∧ (judgedState r s).excCode = 0#8 := by
  refine ⟨?_, judgedState_excFields_of_ne (by simp [h])⟩
  rw [judgedState_result, h]
  rfl

/-- The exception fields are the received code and its class after an exception (R24, R25). -/
theorem judgedState_excFields_of_exception {r : List Byte} {s : State} (h : verdict r s = .exception) :
    (judgedState r s).excCode = r.getD 2 0 ∧ (judgedState r s).excClassField = excClass (r.getD 2 0) := by
  rw [judgedState_excCode, judgedState_excClassField, if_pos h, if_pos h]
  exact ⟨rfl, rfl⟩

/-- `BUFMEM` stays as it is but for a read's success (R142). -/
theorem judgedState_bufMem_of_not {r : List Byte} {s : State} (h : ¬ (verdict r s = .success ∧ isRead s.dFunc = true)) :
    (judgedState r s).bufMem = s.bufMem := if_neg h

/-- A verdict that stores nothing writes `STATUS` alone. -/
theorem judgedState_eq_of_not {r : List Byte} {s : State} (h : ¬ (verdict r s = .success ∧ isRead s.dFunc = true)) :
    judgedState r s = { s with status := (judgedState r s).status } := by
  have heq := judgedState_eq r s
  rwa [judgedState_bufMem_of_not h] at heq

/-- A word after a successful read: a data word in the transaction's words, and as before elsewhere (R125, R142). -/
theorem memGet_judgedState_of_success {r : List Byte} {s : State} (hv : verdict r s = .success)
    (hr : isRead s.dFunc = true) (a : Nat) :
    memGet (judgedState r s).bufMem a =
      if s.dBase.toNat ≤ a ∧ a < s.dBase.toNat + bufferWords s.cfg.coilLayout s.dFunc s.dCount.toNat then
        some ((responseWords s.cfg.coilLayout s.dFunc r s.dCount.toNat).getD (a - s.dBase.toNat) 0)
      else memGet s.bufMem a := by
  have hmem : (judgedState r s).bufMem =
      memSetAll s.bufMem s.dBase.toNat (responseWords s.cfg.coilLayout s.dFunc r s.dCount.toNat) := if_pos ⟨hv, hr⟩
  rw [hmem, memGet_memSetAll, responseWords_length _ _ _ _ hr]

/-- No word outside the transaction's words changes (R142). -/
theorem memGet_judgedState_outside (r : List Byte) (s : State) {a : Nat}
    (ha : a < s.dBase.toNat ∨ s.dBase.toNat + bufferWords s.cfg.coilLayout s.dFunc s.dCount.toNat ≤ a) :
    memGet (judgedState r s).bufMem a = memGet s.bufMem a := by
  by_cases h : verdict r s = .success ∧ isRead s.dFunc = true
  · rw [memGet_judgedState_of_success h.1 h.2, if_neg (by omega)]
  · rw [judgedState_bufMem_of_not h]

/-- The `k`-th of the transaction's words after a successful read. -/
theorem memGet_judgedState_add {r : List Byte} {s : State} (hv : verdict r s = .success) (hr : isRead s.dFunc = true)
    {k : Nat} (hk : k < bufferWords s.cfg.coilLayout s.dFunc s.dCount.toNat) :
    memGet (judgedState r s).bufMem (s.dBase.toNat + k) =
      some ((responseWords s.cfg.coilLayout s.dFunc r s.dCount.toNat).getD k 0) := by
  rw [memGet_judgedState_of_success hv hr, if_pos (by omega), Nat.add_sub_cancel_left]

end Sys2Proof.Machine

section
open Sys2Proof Sys2Proof.Machine

/-- Settles O30: RX_CLEAR's writes are the only ones, with the gate open and shut. -/
theorem rxClearEmptiesTheBuffer : Obligations.RxClearEmptiesTheBuffer :=
  ⟨decodeCommand_rxClear, fun s hf => runCommand_faulted (.ok (rxCleared s)) hf, fun s hf =>
    ⟨_, exec_rxClear hf, rfl, rxCleared_rxOvf s, rxCleared_result s, rxCleared_statusKept s⟩⟩

/-- Settles O31: below 128 bytes the byte is stored, from there on only `RX_OVF` is written, which fails the first check of
the verdict. -/
theorem rxPushAppendsOrOverflows : Obligations.RxPushAppendsOrOverflows := by
  refine ⟨decodeCommand_rxPush, fun s b hf => runCommand_faulted (.ok (pushed s b)) hf, fun s t hovf h ht => ?_,
    fun s b hf => ?_⟩
  · rcases judgeFrame_next h with ⟨ht', -⟩ | ⟨-, -, rfl⟩
    · simp [ht] at ht'
    · rw [judgedState_result, verdict_eq, if_pos hovf]
      rfl
  · split_ifs with hl
    · refine ⟨_, exec_rxPush b hf, ?_, ?_, fun _ => pushed_rxBuf_getElem b hl⟩
      · rw [pushed_of_lt b hl]
      · rw [pushed_rxLen_toNat b hl.le]
        omega
    · rw [exec_rxPush b hf, pushed_of_ge b (by omega)]
      exact ⟨_, rfl, rfl, State.setRxOvf_rxOvf 1 s, setRxOvf_statusKept 1 s⟩

/-- Settles O33: each failed check faults with its cause; a block that passes them all is ready, and every verdict has a
code of its own. -/
theorem validateFaultsInPriorityOrder : Obligations.ValidateFaultsInPriorityOrder := by
  intro s hf
  split_ifs with hl hv h0 hrange
  · exact exec_validate_faultEntered hf (validateCheck_of_not_descLoaded hl)
  · rw [Bool.not_eq_false] at hl
    exact exec_validate_faultEntered hf (validateCheck_of_not_validDesc hl hv)
  · rw [Bool.not_eq_false] at hl hv
    exact exec_validate_faultEntered hf (validateCheck_of_broadcast hl hv h0)
  · rw [Bool.not_eq_false] at hl hv
    exact exec_validate_faultEntered hf
      (validateCheck_of_not_bufferFits hl hv h0 ((isRead_iff _).2 hrange.1) hrange.2)
  · rw [Bool.not_eq_false] at hl hv
    have hready : ValidateReady s :=
      ⟨hf, hl, hv, h0, fun hr => not_not.1 fun hfits => hrange ⟨(isRead_iff _).1 hr, hfits⟩⟩
    exact ⟨_, exec_validate_of_ready hready, (judgedState_faulted _ s).trans hf,
      judgedState_result s.rxBytes s ▸ verdictCode_of_ne_none (verdict_ne_none _ s)⟩

/-- Settles O34: the verdict's list of checks, code by code, and its content in the rules' own numbers. -/
theorem validateVerdictFollowsThePriority : Obligations.ValidateVerdictFollowsThePriority := by
  intro s hready
  have hcode : (judgedState s.rxBytes s).result = 2#3 ↔ verdict s.rxBytes s = .exception := by
    rw [judgedState_result]
    exact verdictCode_eq_exception
  refine ⟨_, exec_validate_of_ready hready, ?_, fun hne => ?_, fun he => ?_⟩
  · rw [judgedState_result, verdict_eq]
    simp only [apply_ite verdictCode, verdictCode_contentVerdict, expectedLength, rspLen_eq]
    rfl
  · exact (judgedState_excFields_of_ne (mt hcode.2 hne)).symm
  · obtain ⟨hexcCode, hexcClass⟩ := judgedState_excFields_of_exception (hcode.1 he)
    exact ⟨hexcCode, hexcClass.trans (excClass_eq _)⟩

/-- Settles O35: a faulted block stays as it is, a failed check enters a fault, and a verdict leaves the judged state. -/
theorem validateFrame : Obligations.ValidateFrame := by
  intro s t h
  by_cases hf : s.faulted = true
  · obtain rfl := (exec_effect h).eq_of_faulted hf
    exact ⟨rfl, rfl, rfl, ⟨rfl, rfl⟩, fun _ => ⟨rfl, rfl⟩, fun _ _ => rfl, fun _ _ => rfl⟩
  rcases judgeFrame_next h with ⟨ht, rfl | ⟨c, rfl⟩⟩ | ⟨hf', -, rfl⟩
  · exact absurd ht hf
  · exact ⟨rfl, enterFault_rxOvf c s, enterFault_expectRsp c s, enterFault_reservedKept c s,
      fun he => absurd (he ▸ ht) hf, fun _ _ => rfl, fun _ _ => rfl⟩
  · obtain ⟨hovf, hexp, hfault, hreserved⟩ := judgedState_statusKept s.rxBytes s
    refine ⟨judgedState_eq _ s, hovf, hexp, hreserved, fun _ => hfault, fun hn a => ?_,
      fun _ => memGet_judgedState_outside _ s⟩
    rw [judgedState_bufMem_of_not]
    rintro ⟨hv, hr⟩
    exact hn ⟨hf', (judgedState_faulted _ s).trans hf', by rw [judgedState_result, hv]; rfl, (isRead_iff _).1 hr⟩

/-- Settles O37: an accepted response has the expected length, so fewer bytes of it are too few, and the overflow flag is
the same. -/
theorem prefixesAreIncomplete : Obligations.PrefixesAreIncomplete := by
  intro s t u m hready h hres hm hu
  have hready' : ValidateReady { s with rxLen := BitVec.ofNat 8 m } := hready
  rw [exec_validate_of_ready hready] at h
  rw [exec_validate_of_ready hready', rxBytes_withRxLen hm.le] at hu
  cases h
  cases hu
  rw [judgedState_result] at hres
  obtain ⟨hovf, hfunc, hlen⟩ :=
    checked_of_accepted (hres.imp (fun h => verdictCode_injective h) (fun h => verdictCode_injective h))
  have hv : verdict (s.rxBytes.take m) { s with rxLen := BitVec.ofNat 8 m } = .incomplete :=
    verdict_take_of_lt hovf hfunc hlen hm
  refine ⟨?_, judgedState_bufMem_of_not (by simp [hv])⟩
  rw [judgedState_result, hv]
  rfl

/-- Settles O38: the form's meaning is VALIDATE of its bytes. -/
theorem validateRunsItsResponseForm : Obligations.ValidateRunsItsResponseForm := fun s _ h =>
  (exec_of_encode_response h s).symm

/-- Settles O39: the data words are those of an unpack of points under either layout. -/
theorem pointResponsesAreUnpacked : Obligations.PointResponsesAreUnpacked := by
  intro s i r hready hovf hfunc henc hlen hslave hbyte hcount hcrc
  have hr : isRead s.dFunc = true := (isRead_iff_points_or_registers _).2 (.inl hfunc)
  have hv : verdict r s = .success := by
    rw [← dataBytes_points _ hfunc] at hlen hcount
    exact verdict_of_read hovf hr hbyte hlen hcrc hslave hcount
  obtain ⟨hres, hclass, hcode⟩ := judgedState_fields_of_success hv
  obtain ⟨hovf', hexp, hfault, hreserved⟩ := judgedState_statusKept r s
  have hword {k : Nat} := memGet_judgedState_add hv hr (k := k)
  have houtside {a : Nat} := memGet_judgedState_outside r s (a := a)
  rw [responseWords_points _ _ _ hfunc] at hword
  refine ⟨_, (exec_of_encode_response henc s).trans (judgeFrame_of_ready r hready), judgedState_eq r s, hres, hclass, hcode,
    hovf', hexp, hfault, hreserved, fun hlayout => ?_, fun hlayout => ?_⟩
  · rw [hlayout, bufferWords_onePerWord] at hword houtside
    refine ⟨fun k hk => ?_, fun _ => houtside⟩
    rw [hword hk, unpackCoils_onePerWord_getD _ _ _ hk, responsePoint]
  · rw [hlayout, bufferWords_packed16_points _ hfunc] at hword houtside
    refine ⟨fun j hj => ⟨packedWord (responsePoint r) s.dCount.toNat j, ?_, fun b hb => ?_⟩, fun _ => houtside⟩
    · rw [hword hj, unpackCoils_packed16_getD _ _ _ hj]
    · rw [getLsbD_packedWord _ _ _ _ hb, responsePoint]

/-- Settles O40: the data words are those of an unpack of registers. -/
theorem registerResponsesAreUnpacked : Obligations.RegisterResponsesAreUnpacked := by
  intro s i r hready hovf hfunc henc hlen hslave hbyte hcount hcrc
  have hr : isRead s.dFunc = true := (isRead_iff_points_or_registers _).2 (.inr hfunc)
  have hv : verdict r s = .success := by
    rw [← dataBytes_registers _ hfunc] at hlen hcount
    exact verdict_of_read hovf hr hbyte hlen hcrc hslave hcount
  obtain ⟨hres, hclass, hcode⟩ := judgedState_fields_of_success hv
  obtain ⟨hovf', hexp, hfault, hreserved⟩ := judgedState_statusKept r s
  have hword {k : Nat} := memGet_judgedState_add hv hr (k := k)
  have houtside {a : Nat} := memGet_judgedState_outside r s (a := a)
  rw [bufferWords_registers _ _ hfunc] at hword houtside
  refine ⟨_, (exec_of_encode_response henc s).trans (judgeFrame_of_ready r hready), judgedState_eq r s, hres, hclass, hcode,
    hovf', hexp, hfault, hreserved, fun k hk => ?_, fun _ => houtside⟩
  rw [hword hk, responseWords_registers _ _ _ hfunc, unpackWords_getD _ _ _ hk, joinBytes]

/-- Settles O41: the echo check reads the form's own fields. -/
theorem confirmationsAreJudgedByTheirEcho : Obligations.ConfirmationsAreJudgedByTheirEcho := by
  intro s slave addr count crc i r hready hovf hi henc hslave hcrc
  have hr : r = writeResponseBytes slave s.dFunc addr count crc := by
    rcases hi with ⟨hfunc, rfl⟩ | ⟨hfunc, rfl⟩
    all_goals
      rw [hfunc]
      exact (Code.response.inj henc).symm
  have hw : isWrite s.dFunc = true := (isWrite_iff _).2 (hi.imp And.left And.left)
  have hv : verdict r s = if addr = s.dAddr ∧ count = s.dCount then .success else .frameError := by
    rw [verdict_of_confirmation hovf hw (by rw [hr]; rfl) (by rw [hr]; rfl) hcrc (by rw [hr, ← hslave]; rfl), hr,
      checkEcho_writeResponseBytes]
  have hne : verdict r s ≠ .exception := by
    rw [hv]
    split_ifs <;> decide
  obtain ⟨hclass, hcode⟩ := judgedState_excFields_of_ne hne
  have hread : isRead s.dFunc ≠ true := fun hr => by simp [isWrite_of_isRead hr] at hw
  refine ⟨_, (exec_of_encode_response henc s).trans (judgeFrame_of_ready r hready),
    judgedState_eq_of_not (fun h => hread h.2), ?_, hclass, hcode, judgedState_statusKept r s⟩
  rw [judgedState_result, hv, apply_ite verdictCode]
  rfl

/-- Settles O42: the frame carries its own CRC, and the function byte is that of the request's exception. -/
theorem exceptionResponsesAreReported : Obligations.ExceptionResponsesAreReported := by
  intro s i slave code crc hready hovf henc hslave hcrc
  have hv : verdict [slave, s.dFunc ||| 0x80#8, code, crc.extractLsb' 0 8, crc.extractLsb' 8 8] s = .exception := by
    refine verdict_of_exception hovf rfl rfl ?_ hslave
    rw [hcrc]
    exact crcOk_crcFrame [slave, s.dFunc ||| 0x80#8, code]
  obtain ⟨hcode, hclass⟩ := judgedState_excFields_of_exception hv
  refine ⟨_, (exec_of_encode_response henc s).trans (judgeFrame_of_ready _ hready),
    judgedState_eq_of_not (by simp [hv]), ?_, hcode, hclass.trans (excClass_eq _), judgedState_statusKept _ s⟩
  rw [judgedState_result, hv]
  rfl

end

/-! Lemmas and proofs of the statements about faults (spec/60_exceptions.md): the gate, what an instruction that faults
leaves behind, which instructions can stop, and the checks of BUILD. -/
namespace Sys2Proof.Machine

/-! ### The fault gate (R154, R171) -/

theorem buildForm_faulted {slave f : Byte} {count : Word} {ok : Bool} {fr : List Byte} {s : State}
    (hf : s.faulted = true) : buildForm slave f count ok fr s = .next s := if_pos hf

/-- Reset leaves the fault state (R171). -/
theorem hostReset_faulted (s : State) : (hostReset s).faulted = false :=
  (State.faulted_of_status (s := State.reset) (t := hostReset s) rfl).trans (by decide)

/-! ### Entering the fault state (R152, R153) -/

/-- An instruction that leaves the block faulted when it was not has entered the fault state and done nothing else; it is
BUILD, VALIDATE or a frame form. -/
theorem Effect.enterFault_of_faulted {i : Instr} {s t : State} (e : Effect i s t) (hs : s.faulted = false)
    (ht : t.faulted = true) : ∃ c, c ≠ .uninitBuf ∧ t = enterFault c s ∧
      (i = .build ∨ i = .validate ∨ ∀ w, encode i ≠ .command w) := by
  cases e with
  | fault _ c hc hi => exact ⟨c, hc, rfl, hi⟩
  | gated hf => simp [hf] at hs
  | nop | crcInit | crcByte | loadDesc | rxPush => exact absurd (hs.symm.trans ht) (by decide)
  | rxClear => exact absurd (((rxCleared_faulted s).trans hs).symm.trans ht) (by decide)
  | rxOverflow | request | judged => simp [hs] at ht
  | stored _ _ r => exact absurd (((recordVerdict_faulted .success r s).trans hs).symm.trans ht) (by decide)

/-! ### Stopping (R153) -/

theorem runCommand_ok_total (s u : State) : ∃ t, runCommand s (.ok u) = .next t := by
  cases hf : s.faulted with
  | true => exact ⟨s, runCommand_faulted _ hf⟩
  | false => exact ⟨u, runCommand_ok u hf⟩

/-- Every instruction but BUILD and the request forms answers with a state: its body cannot fail, or it is VALIDATE of some
bytes. -/
theorem exec_total_or_build (i : Instr) (s : State) :
    (∃ t, exec i s = .next t) ∨ i = .build ∨ ∃ fr, encode i = .request fr := by
  cases i
  case build => exact .inr (.inl rfl)
  case nop | crcInit | crcByte | loadDesc | rxClear | rxPush => exact .inl (runCommand_ok_total s _)
  case reqReadCoilStatus | reqReadInputStatus | reqReadHoldingRegisters | reqReadInputRegisters |
      reqForceMultipleCoils | reqPresetMultipleRegisters => exact .inr (.inr ⟨_, rfl⟩)
  all_goals exact .inl (judgeFrame_total _ s)

/-- The gate of every instruction: one that answers with a state has no effect but the gate's, and the others are behind
the gate of commands or that of the request forms. -/
theorem exec_faulted (i : Instr) {s : State} (hf : s.faulted = true) : exec i s = .next s := by
  rcases exec_total_or_build i s with ⟨t, h⟩ | rfl | ⟨fr, he⟩
  · rw [h, (exec_effect h).eq_of_faulted hf]
  · exact runCommand_faulted (buildBody s) hf
  · obtain ⟨ok, -, hexec⟩ := exec_of_encode_request he
    rw [hexec, buildForm_faulted hf]

/-! ### The checks of BUILD (R105, R155) -/

theorem buildCheck_of_not_descLoaded {s : State} {slave f : Byte} {count : Word} (hl : s.descLoaded = false) :
    buildCheck s slave f count = .error .noDesc := by
  simp [buildCheck, hl]

/-- BUILD finds the words of a write out of range (R86). -/
theorem buildCheck_of_not_bufferFits {s : State} (hl : s.descLoaded = true)
    (hv : validDesc s.dSlave s.dFunc s.dCount = true) (hw : isWrite s.dFunc = true) (hfits : ¬ BufferFits s) :
    buildCheck s s.dSlave s.dFunc s.dCount = .error .bufRange := by
  have hrange : bufferInRange s s.dFunc s.dCount = false := decide_eq_false hfits
  simp [buildCheck, hl, hv, hw, hrange]

/-- A write whose words are in range and not all written cannot be packed (R37, R43). -/
theorem requestPayload_of_not_bufferWritten {s : State} (hw : isWrite s.dFunc = true) (hfits : BufferFits s)
    (hwritten : ¬ BufferWritten s) : requestPayload s = .error .uninitBuf := by
  cases hr : readWords s s.dBase.toNat (bufferWords s.cfg.coilLayout s.dFunc s.dCount.toNat) with
  | error c =>
    obtain ⟨rfl, -⟩ := readWords_error hfits hr
    simp [requestPayload, hw, hr]
  | ok ws => exact absurd (fun k hk => by rw [memGet_of_readWords hr hk]; rfl) hwritten

/-- BUILD when its checks pass and its payload cannot be packed. -/
theorem exec_build_of_payload_error {s : State} {c : FaultCause} (hf : s.faulted = false)
    (hc : buildCheck s s.dSlave s.dFunc s.dCount = .ok ()) (hp : requestPayload s = .error c) :
    exec .build s = raiseFault c s := by
  have hbody : buildBody s = .error c := by simp [buildBody, hc, hp]
  rw [← runCommand_error c hf, ← hbody]
  rfl

end Sys2Proof.Machine

section
open Sys2Proof Sys2Proof.Machine

/-- Settles O24: each failed check faults with its cause and an unwritten word stops the model; a block past all four is
ready, and the built frame starts with its descriptor's slave and function. -/
theorem buildFaultsInPriorityOrder : Obligations.BuildFaultsInPriorityOrder := by
  intro s hf
  simp only [← isWrite_iff]
  by_cases hl : s.descLoaded = false
  · rw [if_pos hl]
    exact exec_build_faultEntered hf (buildCheck_of_not_descLoaded hl)
  rw [if_neg hl]
  rw [Bool.not_eq_false] at hl
  by_cases hv : validDesc s.dSlave s.dFunc s.dCount = false
  · rw [if_pos hv]
    exact exec_build_faultEntered hf (buildCheck_of_not_validDesc hl hv)
  rw [if_neg hv]
  rw [Bool.not_eq_false] at hv
  by_cases hrange : isWrite s.dFunc = true ∧ ¬ BufferFits s
  · rw [if_pos hrange]
    exact exec_build_faultEntered hf (buildCheck_of_not_bufferFits hl hv hrange.1 hrange.2)
  rw [if_neg hrange]
  have hfits (hw : isWrite s.dFunc = true) : BufferFits s := not_not.1 fun h => hrange ⟨hw, h⟩
  by_cases hunwritten : isWrite s.dFunc = true ∧ ¬ BufferWritten s
  · rw [if_pos hunwritten]
    obtain ⟨hw, hunwritten⟩ := hunwritten
    have hc : buildCheck s s.dSlave s.dFunc s.dCount = .ok () :=
      buildCheck_ok.2 ⟨hl, hv, fun hw => (bufferInRange_iff _ _ _).2 (hfits hw)⟩
    exact exec_build_of_payload_error hf hc (requestPayload_of_not_bufferWritten hw (hfits hw) hunwritten)
  rw [if_neg hunwritten]
  have hready : BuildReady s := ⟨hf, hl, hv, fun hw => ⟨hfits hw, not_not.1 fun h => hunwritten ⟨hw, h⟩⟩⟩
  obtain ⟨p, -, hfit, hb⟩ := exec_build_of_ready hready
  obtain ⟨hres, hexp, -⟩ := emitRequest_newTransaction (builtFrame s p) s.dSlave s
  refine ⟨_, hb, rfl, (emitRequest_faulted _ _ _).trans hf, hres, hexp, ?_⟩
  rw [emitRequest_txBytes _ _ _ hfit]
  exact ⟨rfl, rfl, crcOk_crcFrame _⟩

/-- Settles O45: the gate of every instruction, and reset as the way out. -/
theorem faultGateHoldsEveryInstruction : Obligations.FaultGateHoldsEveryInstruction :=
  ⟨fun i _ hf => exec_faulted i hf, fun _ _ h => ⟨_, step_of_hostActions h, hostReset_faulted _⟩⟩

/-- Settles O46: of an instruction's effects only fault entry turns `FAULT` on, and a stored cause has a code. -/
theorem faultsArePrecise : Obligations.FaultsArePrecise := by
  intro i s t h hs ht
  obtain ⟨c, hc, rfl, -⟩ := (exec_effect h).enterFault_of_faulted hs ht
  exact ⟨causeCode c, causeCode_ne_zero hc, enterFault_faultEntered c s⟩

/-- Settles O47: a bad end is a fault entered, or the stop of an instruction that is BUILD or a request form. -/
theorem onlyBuildAndValidateFailARun : Obligations.OnlyBuildAndValidateFailARun := by
  intro i s hs hbad
  rcases exec_total_or_build i s with ⟨t, h⟩ | hi
  · have ht : t.faulted = true := by simpa [h, goodEnd] using hbad
    obtain ⟨-, -, -, hi⟩ := (exec_effect h).enterFault_of_faulted hs ht
    exact hi
  · exact build_validate_or_frame_of_request hi

end

/-! Lemmas and proofs of the statements about reset (spec/70_reset_and_hazards.md): what RESET writes and keeps, field by
field (R171, R172; spec/10_state.md R36). -/
namespace Sys2Proof.Machine

@[simp] theorem hostReset_crc (s : State) : (hostReset s).crc = 0xFFFF#16 := rfl
@[simp] theorem hostReset_status (s : State) : (hostReset s).status = 0#32 := rfl
@[simp] theorem hostReset_descLoaded (s : State) : (hostReset s).descLoaded = false := rfl
@[simp] theorem hostReset_txLen (s : State) : (hostReset s).txLen = 0#8 := rfl
@[simp] theorem hostReset_rxLen (s : State) : (hostReset s).rxLen = 0#8 := rfl
@[simp] theorem hostReset_bufMem (s : State) : (hostReset s).bufMem = s.bufMem := rfl
@[simp] theorem hostReset_cfg (s : State) : (hostReset s).cfg = s.cfg := rfl
@[simp] theorem hostReset_hostActions (s : State) : (hostReset s).hostActions = s.hostActions := rfl

/-- RESET has no gate and no check, so its step always goes on (R171). -/
theorem step_reset {s : State} {rest : List HostAction} (h : s.hostActions = .reset :: rest) :
    step s = .next (hostReset { s with hostActions := rest }) := by
  rw [step_of_hostActions h, performAction]

/-- After power-up no word of `BUFMEM` is written (R172). -/
theorem memGet_reset_bufMem (a : Nat) : memGet State.reset.bufMem a = none := rfl

end Sys2Proof.Machine

section
open Sys2Proof Sys2Proof.Machine

/-- Settles O7: the step of RESET is `hostReset`, whose fields are the reset values or those before; the power-up state
holds the reset values as written. -/
theorem resetGivesTheResetValues : Obligations.ResetGivesTheResetValues := by
  refine ⟨fun s rest h => ⟨_, step_reset h, ?_⟩, ?_⟩
  · exact ⟨hostReset_crc _, hostReset_status _, hostReset_descLoaded _, hostReset_txLen _, hostReset_rxLen _,
      hostReset_bufMem _, hostReset_cfg _, hostReset_hostActions _⟩
  · exact ⟨rfl, rfl, rfl, rfl, rfl, memGet_reset_bufMem⟩

end
